-- ==== Sys2Proof/Word.lean ====
section
/-! DEFINITION. The widths of the AL16's values, as the data sheet's tables give them. -/

namespace Sys2Proof

/-- A byte of a frame, a record or a port access (00, CONVENTIONS). -/
abbrev Byte := BitVec 8

/-- A two-byte value: stamps, discard counters, PROBE_TIME, the microsecond counter. -/
abbrev Half := BitVec 16

/-- A resource number, 0 to 63 (R1). -/
abbrev Resource := Fin 64

/-- A station address, 0 to 15 (R137). -/
abbrev StationAddr := Fin 16

/-- A client of the board, 0 to 7 (R77). -/
abbrev Client := Fin 8

/-- The number of a request slot, 0 to 7 (R77). -/
abbrev SlotIx := Fin 8

end Sys2Proof
end

