-- ==== Sys2Proof/Config.lean ====
section
/-! DEFINITION. The fixed figures of the part: capacities (00, KEY FIGURES; R4, R31, R90, R105, R159, R167) and fixed times (R209).
The part has no free value: the data sheet leaves no result open (log 32). -/

namespace Sys2Proof.Config

/-- Local holds plus outstanding claims, at most (R90). -/
def holdLimit : Nat := 16

/-- Outstanding claims, at most (R31). -/
def claimLimit : Nat := 4

/-- Records of the completion queue, at most (R105). -/
def queueLimit : Nat := 16

/-- Completion records in the completion queue, at most (R105). -/
def completionLimit : Nat := 14

/-- Bytes of the forwarding queue (R167). -/
def forwardingBytes : Nat := 4096

/-- The longest frame, in bytes (R159). -/
def longestFrame : Nat := 361

/-- Bytes of a request record that the assembly buffer stores (R185). -/
def assemblyBytes : Nat := 40

/-- The hop count at which a station other than the originator discards (R164). -/
def hopLimit : Nat := 15

/-- Entries of a ROLL, at most (R119). -/
def rollEntries : Nat := 16

/-- The relief counter's largest value (R172). -/
def reliefLimit : Nat := 8

/-- IDLE characters after every END (R158). -/
def gapCharacters : Nat := 4

/-- Characters in one microsecond: tBYTE is 100 ns (R209), the clock taken as exact (log 26). -/
def charactersPerMicro : Nat := 10

/-- tPROC, 1.2 µs, in character times (R209). -/
def procCharacters : Nat := 12

/-- tUP in character times: 100 µs, an unbroken run of 1,000 valid characters (R160). -/
def upCharacters : Nat := 1000

/-- tLOS in character times: 20 µs, 200 of them with no valid character (R160). -/
def losCharacters : Nat := 200

/-- The probe timeout in steps of the microsecond counter (R181). -/
def probeMicros : Nat := 65535

/-- tRST in nanoseconds (R209). -/
def resetNs : Nat := 1000

/-- tPOR, 10 ms, in character times (R209). -/
def porCharacters : Nat := 100000

/-- The shortest strobe that is taken, in nanoseconds (R212). -/
def strobeNs : Nat := 60

end Sys2Proof.Config
end

