-- ==== Sys2Proof/Syntax.lean ====
section
/-! DEFINITION. The commands of the AL16: one constructor of `Instr` for each row of spec/opcode_table.json,
in the table's order, with the operands each command carries (log 1, log 23, log 24). -/

namespace Sys2Proof

/-- The mode of a hold or a claim (R1). -/
inductive Mode where
  | shared
  | exclusive
  deriving DecidableEq, Repr

/-- The outcome a SETTLE carries (R51). -/
inductive SettleOutcome where
  | granted
  | refused
  | withdrawn
  deriving DecidableEq, Repr

/-- The body of a CLAIM frame (R203). Bits 7 to 4 of `patience` are spare and travel as received (R202). -/
structure ClaimBody where
  resource  : Resource
  mode      : Mode
  sequence  : Byte
  patience  : Byte
  objection : Option StationAddr
  deriving DecidableEq, Repr

/-- The body of a SETTLE frame (R203). -/
structure SettleBody where
  resource : Resource
  mode     : Mode
  sequence : Byte
  outcome  : SettleOutcome
  deriving DecidableEq, Repr

/-- The body of a RELEASE frame (R63, R203). The note length is the length of `note`. -/
structure ReleaseBody where
  resource : Resource
  mode     : Mode
  note     : List Byte
  deriving DecidableEq, Repr

/-- One entry of a ROLL (R118, R203): the address byte, the entry hold bytes and the pendings, each byte as it stands
in the frame, spare bits included (R202). -/
structure RollEntry where
  addr     : Byte
  holds    : List Byte
  pendings : List (Byte × Byte)
  deriving DecidableEq, Repr

/-- The body of a ROLL frame (R116, R203). -/
structure RollBody where
  sequence : Byte
  stamp    : Half
  entries  : List RollEntry
  deriving DecidableEq, Repr

/-- The body of a ROSTER frame (R125, R203): address bytes, spare bits as received. -/
structure RosterBody where
  sequence : Byte
  stations : List Byte
  deriving DecidableEq, Repr

/-- The six frame bodies (R203). -/
inductive Body where
  | claim   (b : ClaimBody)
  | settle  (b : SettleBody)
  | release (b : ReleaseBody)
  | roll    (b : RollBody)
  | roster  (b : RosterBody)
  | probe   (sequence : Byte)
  deriving DecidableEq, Repr

/-- A frame that has the form R202 to R204 ask for: originator, hop count and body. Its bytes and CRC are
`Frame.bytes` of Machine/Frames.lean. -/
structure Frame where
  origin : StationAddr
  hop    : Byte
  body   : Body
  deriving DecidableEq, Repr

/-- The own frames that come home to no block (R164). -/
inductive StrippedBody where
  | settle  (b : SettleBody)
  | release (b : ReleaseBody)
  | roster  (b : RosterBody)
  deriving DecidableEq, Repr

/-- The nine request kinds (R206). -/
inductive RequestKind where
  | configure
  | acquire
  | release
  | cancel
  | query
  | stats
  | clearFault
  | leave
  | restart
  deriving DecidableEq, Repr

/-- A request record as the port commits it, after its kind byte (R206): the declared length, the client and tag bytes,
and the bytes from offset 4. -/
structure HostRecord where
  declared : Byte
  client   : Byte
  tag      : Byte
  body     : List Byte
  deriving DecidableEq, Repr

/-- The strobe of a host port cycle (R212): how long CS is low with RD or WR, and whether RD and WR are low together in it. -/
structure Strobe where
  lowNs : Nat
  both  : Bool
  deriving DecidableEq, Repr

/-- The shortest strobe that is taken, with one of RD and WR low (R212): what a port command carries where none is written. -/
def Strobe.shortest : Strobe := { lowNs := 60, both := false }

/-- What ends a reset (R140, R211). -/
inductive ReleaseCause where
  | powerOnEnds
  | pinReleased
  deriving DecidableEq, Repr

/-- Why a frame IN FRAME is discarded (R159). -/
inductive FramingCause where
  | idle
  | start
  | violation
  | growth
  deriving DecidableEq, Repr

/-- The port addresses whose writes are ignored (R183). -/
inductive IgnoredPort where
  | completion
  | probeTimeLo
  | probeTimeHi
  | ident
  deriving DecidableEq, Repr

/-- The commands, in the order of spec/opcode_table.json. -/
inductive Instr where
  | powerFail
  | resetAsserted (lowNs : Nat)
  | resetReleased (cause : ReleaseCause) (straps : StationAddr)
  | requestAssemblyByte (b : Byte) (y : Strobe := .shortest)
  | configure (r : HostRecord)
  | acquire (r : HostRecord)
  | release (r : HostRecord)
  | cancel (r : HostRecord)
  | query (r : HostRecord)
  | stats (r : HostRecord)
  | clearFault (r : HostRecord)
  | leave (r : HostRecord)
  | restart (r : HostRecord)
  | completionRead (noticeFirst : Bool) (y : Strobe := .shortest)
  | abandon (b : Byte) (y : Strobe := .shortest)
  | clearRefused (b : Byte) (y : Strobe := .shortest)
  | clearNoticeLost (b : Byte) (y : Strobe := .shortest)
  | clearProbeDone (b : Byte) (y : Strobe := .shortest)
  | clearProbeBusy (b : Byte) (y : Strobe := .shortest)
  | intmaskWrite (b : Byte) (y : Strobe := .shortest)
  | probeTimeLoRead (y : Strobe := .shortest)
  | probe (b : Byte) (y : Strobe := .shortest)
  | ignoredWrite (a : IgnoredPort) (b : Byte) (y : Strobe := .shortest)
  | framingDiscard (c : FramingCause)
  | formatDiscard (bytes : List Byte)
  | claimReceipt (origin : StationAddr) (hop : Byte) (b : ClaimBody)
  | settleReceipt (origin : StationAddr) (hop : Byte) (b : SettleBody)
  | releaseReceipt (origin : StationAddr) (hop : Byte) (b : ReleaseBody)
  | rollReceipt (origin : StationAddr) (hop : Byte) (b : RollBody)
  | rosterReceipt (origin : StationAddr) (hop : Byte) (b : RosterBody)
  | probeForward (origin : StationAddr) (hop : Byte) (sequence : Byte)
  | ownClaimReturn (hop : Byte) (b : ClaimBody)
  | ownRollReturn (hop : Byte) (b : RollBody)
  | ownProbeReturn (hop : Byte) (sequence : Byte)
  | ownFrameStripped (hop : Byte) (b : StrippedBody)
  | transmitChoice
  | claimTransmitted
  | settleTransmitted
  | releaseTransmitted
  | rollTransmitted
  | rosterTransmitted
  | heldOrigination
  | probeTransmitted
  | linkUp
  | linkDown
  | circuitTimeout (sequence : Byte)
  | intentExpiry (resource : Resource) (originator : StationAddr)
  | rollTimerExpiry
  | rollLost
  | abandonedRollExpiry
  | retiredRollExpiry
  | probeTimeout
  | endOfLeaving
  | slotPosting
  | frameStart
  deriving DecidableEq, Repr

end Sys2Proof
end

