-- ==== Sys2Proof/WellFormed.lean ====
section
/-! DEFINITION. What an operand must satisfy beyond its type to be a command the outside can send: the layouts' count
fields (R203, R206), the length of a RESET pulse (R211) and of a strobe (R212). -/

namespace Sys2Proof

/-- A note fits its length field (R203: 0 to 32). -/
def ReleaseBody.wf (b : ReleaseBody) : Bool := decide (b.note.length ≤ 32)

/-- An entry's counts keep their limits (R203: p at most 4, h + p at most 16). -/
def RollEntry.wf (e : RollEntry) : Bool :=
  decide (e.pendings.length ≤ 4) && decide (e.holds.length + e.pendings.length ≤ 16)

/-- A ROLL holds 1 to 16 entries, each within its limits (R204). -/
def RollBody.wf (b : RollBody) : Bool :=
  decide (1 ≤ b.entries.length) && decide (b.entries.length ≤ Config.rollEntries) && b.entries.all RollEntry.wf

/-- A ROSTER names 1 to 16 addresses (R204). -/
def RosterBody.wf (b : RosterBody) : Bool :=
  decide (1 ≤ b.stations.length) && decide (b.stations.length ≤ 16)

/-- The count fields of a body keep their limits (R204). The other fields cannot break theirs: their types hold
allowed values only. -/
def Body.wf : Body → Bool
  | .claim _   => true
  | .settle _  => true
  | .release b => b.wf
  | .roll b    => b.wf
  | .roster b  => b.wf
  | .probe _   => true

/-- A frame passes the count checks of R204. -/
def Frame.wf (f : Frame) : Bool := f.body.wf

/-- The body of a stripped own frame, as a frame body. -/
def StrippedBody.toBody : StrippedBody → Body
  | .settle b  => .settle b
  | .release b => .release b
  | .roster b  => .roster b

/-- The port commits a record when the bytes written reach the declared length (R186), so the two agree. -/
def HostRecord.wf (r : HostRecord) : Bool := decide (r.declared.toNat = 4 + r.body.length)

/-- The part takes the strobe (R212). -/
def Strobe.wf (y : Strobe) : Bool := decide (Config.strobeNs ≤ y.lowNs)

/-- A well-formed command. -/
def Instr.wf : Instr → Bool
  | .powerFail => true
  | .resetAsserted lowNs => decide (Config.resetNs ≤ lowNs)
  | .resetReleased _ _ => true
  | .requestAssemblyByte _ y => y.wf
  | .configure r => r.wf
  | .acquire r => r.wf
  | .release r => r.wf
  | .cancel r => r.wf
  | .query r => r.wf
  | .stats r => r.wf
  | .clearFault r => r.wf
  | .leave r => r.wf
  | .restart r => r.wf
  | .completionRead _ y => y.wf
  | .abandon _ y => y.wf
  | .clearRefused _ y => y.wf
  | .clearNoticeLost _ y => y.wf
  | .clearProbeDone _ y => y.wf
  | .clearProbeBusy _ y => y.wf
  | .intmaskWrite _ y => y.wf
  | .probeTimeLoRead y => y.wf
  | .probe _ y => y.wf
  | .ignoredWrite _ _ y => y.wf
  | .framingDiscard _ => true
  | .formatDiscard bytes => decide (bytes.length ≤ Config.longestFrame)
  | .claimReceipt _ _ _ => true
  | .settleReceipt _ _ _ => true
  | .releaseReceipt _ _ b => b.wf
  | .rollReceipt _ _ b => b.wf
  | .rosterReceipt _ _ b => b.wf
  | .probeForward _ _ _ => true
  | .ownClaimReturn _ _ => true
  | .ownRollReturn _ b => b.wf
  | .ownProbeReturn _ _ => true
  | .ownFrameStripped _ b => b.toBody.wf
  | .transmitChoice => true
  | .claimTransmitted => true
  | .settleTransmitted => true
  | .releaseTransmitted => true
  | .rollTransmitted => true
  | .rosterTransmitted => true
  | .heldOrigination => true
  | .probeTransmitted => true
  | .linkUp => true
  | .linkDown => true
  | .circuitTimeout _ => true
  | .intentExpiry _ _ => true
  | .rollTimerExpiry => true
  | .rollLost => true
  | .abandonedRollExpiry => true
  | .retiredRollExpiry => true
  | .probeTimeout => true
  | .endOfLeaving => true
  | .slotPosting => true
  | .frameStart => true

end Sys2Proof
end

