-- ==== Sys2Proof/Decode.lean ====
section
/-! DEFINITION. The command a word of spec/opcode_table.json spells. The table gives no row any bits (fixed or fields), so no
word spells a command: the AL16 is a block and takes commands, not instruction words. The byte layouts that the part does read
and write (frames, request records, completion records) stand in Machine/Frames.lean and Machine/Operands.lean. -/

namespace Sys2Proof

/-- No row of the table gives bits, so no word spells a command. -/
def decodeTableWord (_nbits _w : Nat) : Option Instr := none

end Sys2Proof
end

