-- ==== Sys2Proof/Machine/Frames.lean ====
section
/-! DEFINITION. The byte layouts of the ring's frames (R201 to R205): the bytes of a frame with its CRC, and the receiver's
format check, which reads them back. -/

namespace Sys2Proof

/-! ### The small codings of R201 -/

/-- The high and the low byte of a two-byte field: high byte first (R201). -/
def halfBytes (h : Half) : List Byte := [BitVec.ofNat 8 (h.toNat / 256), BitVec.ofNat 8 h.toNat]

/-- A two-byte field from its high and low bytes (R201). -/
def halfOf (hi lo : Byte) : Half := BitVec.ofNat 16 (hi.toNat * 256 + lo.toNat)

/-- A station address in a byte of its own (R202). -/
def addrByte (a : StationAddr) : Byte := BitVec.ofNat 8 a.val

/-- The mode code in bits 7 and 6: 01b SHARED, 10b EXCLUSIVE (R201). -/
def modeCode : Mode → Nat
  | .shared    => 1
  | .exclusive => 2

/-- The resource/mode byte of frames (R201). -/
def resourceModeByte (k : Resource) (m : Mode) : Byte := BitVec.ofNat 8 (k.val + 64 * modeCode m)

/-- The resource in bits 5 to 0 of a byte (R201). -/
def resourceOf (b : Byte) : Resource := Fin.ofNat 64 b.toNat

/-- The mode of a resource/mode byte: codes 00b and 11b are not allowed (R201). -/
def modeOf (b : Byte) : Option Mode :=
  if b.toNat / 64 = 1 then some .shared
  else if b.toNat / 64 = 2 then some .exclusive
  else none

/-- The entry hold byte of ROLL entries, spare bit 0 (R201). -/
def holdByte (k : Resource) (m : Mode) : Byte :=
  BitVec.ofNat 8 (k.val + 128 * (if m = .exclusive then 1 else 0))

/-- The mode of an entry hold byte: bit 7 (R201). -/
def holdByteMode (b : Byte) : Mode := if 128 ≤ b.toNat then .exclusive else .shared

/-- The address byte of ROLL entries and ROSTER, spare bits 0 (R201). -/
def addressByte (a : StationAddr) (fresh : Bool) : Byte := BitVec.ofNat 8 (a.val + 128 * fresh.toNat)

/-- The address in bits 3 to 0 of an address byte (R201). -/
def addressOf (b : Byte) : StationAddr := Fin.ofNat 16 b.toNat

/-- The fresh flag of an address byte: bit 7 (R201). -/
def freshOf (b : Byte) : Bool := decide (128 ≤ b.toNat)

/-- The patience a CLAIM carries: bits 3 to 0, the others spare (R202). -/
def patienceOf (b : Byte) : Nat := b.toNat % 16

/-- The objection field: FFh none, else an address (R203). -/
def objectionByte : Option StationAddr → Byte
  | none   => 0xFF
  | some a => addrByte a

/-- The objection field read back; a value that is neither FFh nor an address is not allowed (R204). -/
def objectionOf (b : Byte) : Option (Option StationAddr) :=
  if b = 0xFF then some none
  else if b.toNat < 16 then some (some (Fin.ofNat 16 b.toNat))
  else none

/-- The outcome codes of a SETTLE (R203). -/
def outcomeByte : SettleOutcome → Byte
  | .granted   => 1
  | .refused   => 2
  | .withdrawn => 3

/-- The outcome read back (R204). -/
def outcomeOf (b : Byte) : Option SettleOutcome :=
  if b = 1 then some .granted
  else if b = 2 then some .refused
  else if b = 3 then some .withdrawn
  else none

/-! ### The CRC (R205) -/

/-- One bit of the computation (R205, step 3). -/
def crcBit (r : Half) (b : Bool) : Half :=
  if r.msb != b then (r <<< 1) ^^^ 0x1021 else r <<< 1

/-- One byte, from bit 7 to bit 0 (R205, step 2). -/
def crcByte (r : Half) (b : Byte) : Half :=
  [7, 6, 5, 4, 3, 2, 1, 0].foldl (fun r i => crcBit r (b.getLsbD i)) r

/-- The CRC over a list of bytes (R205). -/
def crc16 (bytes : List Byte) : Half := bytes.foldl crcByte 0xFFFF

/-! ### From a frame to its bytes -/

/-- The kind byte (R202). -/
def Body.kindByte : Body → Byte
  | .claim _   => 0x51
  | .settle _  => 0x52
  | .release _ => 0x53
  | .roll _    => 0x54
  | .roster _  => 0x55
  | .probe _   => 0x56

/-- The objection is written when the field holds none (R40, R42). -/
def ClaimBody.object (self : StationAddr) (b : ClaimBody) : ClaimBody :=
  match b.objection with
  | none => { b with objection := some self }
  | some _ => b

/-- A frame body is a ROLL. -/
def Body.isRoll : Body → Bool
  | .claim _   => false
  | .settle _  => false
  | .release _ => false
  | .roll _    => true
  | .roster _  => false
  | .probe _   => false

/-- A frame body is a ROSTER. -/
def Body.isRoster : Body → Bool
  | .claim _   => false
  | .settle _  => false
  | .release _ => false
  | .roll _    => false
  | .roster _  => true
  | .probe _   => false

/-- The bytes of one pending (R203). -/
def pendingBytes (p : Byte × Byte) : List Byte := [p.1, p.2]

/-- The bytes of a ROLL entry (R203). -/
def RollEntry.bytes (e : RollEntry) : List Byte :=
  e.addr :: BitVec.ofNat 8 (e.holds.length + 32 * e.pendings.length) :: (e.holds ++ e.pendings.flatMap pendingBytes)

/-- The bytes of a body, from offset 3 (R203). -/
def Body.bytes : Body → List Byte
  | .claim b   => [resourceModeByte b.resource b.mode, b.sequence, b.patience, objectionByte b.objection]
  | .settle b  => [resourceModeByte b.resource b.mode, b.sequence, outcomeByte b.outcome]
  | .release b => resourceModeByte b.resource b.mode :: BitVec.ofNat 8 b.note.length :: b.note
  | .roll b    => b.sequence :: (halfBytes b.stamp ++ (BitVec.ofNat 8 b.entries.length :: b.entries.flatMap RollEntry.bytes))
  | .roster b  => b.sequence :: BitVec.ofNat 8 b.stations.length :: b.stations
  | .probe q   => [q]

/-- The bytes of a frame that the CRC covers (R205). -/
def Frame.content (f : Frame) : List Byte := f.body.kindByte :: addrByte f.origin :: f.hop :: f.body.bytes

/-- The bytes of a frame, CRC included (R202, R205). -/
def Frame.bytes (f : Frame) : List Byte := f.content ++ halfBytes (crc16 f.content)

/-- The length of a frame in bytes, without delimiters (R162, R167). -/
def Frame.length (f : Frame) : Nat := 5 + f.body.bytes.length

/-! ### The format check: from bytes to a frame (R162, R204) -/

/-- Bytes taken two by two. -/
def pairsOf : List Byte → List (Byte × Byte)
  | a :: b :: rest => (a, b) :: pairsOf rest
  | _ => []

/-- The walk over a ROLL's entries (R204): it must end exactly where the bytes end. -/
def parseEntries : Nat → List Byte → Option (List RollEntry)
  | 0, [] => some []
  | 0, _ :: _ => none
  | _ + 1, [] => none
  | _ + 1, [_] => none
  | e + 1, addr :: counts :: rest =>
    let h := counts.toNat % 32
    let p := counts.toNat / 32
    if p ≤ 4 ∧ h + p ≤ 16 ∧ h + 2 * p ≤ rest.length then
      (parseEntries e (rest.drop (h + 2 * p))).map fun es =>
        { addr := addr, holds := rest.take h, pendings := pairsOf ((rest.drop h).take (2 * p)) } :: es
    else none

/-- The body of a frame of a given kind byte; none where the kind names no frame, a code field holds a value that is
not allowed, or the length is wrong (R162, R204). -/
def parseBody (kind : Byte) (payload : List Byte) : Option Body :=
  if kind = 0x51 then
    match payload with
    | [rm, q, p, o] =>
      match modeOf rm, objectionOf o with
      | some m, some ob => some (.claim { resource := resourceOf rm, mode := m, sequence := q, patience := p, objection := ob })
      | _, _ => none
    | _ => none
  else if kind = 0x52 then
    match payload with
    | [rm, q, o] =>
      match modeOf rm, outcomeOf o with
      | some m, some oc => some (.settle { resource := resourceOf rm, mode := m, sequence := q, outcome := oc })
      | _, _ => none
    | _ => none
  else if kind = 0x53 then
    match payload with
    | rm :: n :: note =>
      match modeOf rm with
      | some m =>
        if n.toNat ≤ 32 ∧ note.length = n.toNat then some (.release { resource := resourceOf rm, mode := m, note := note })
        else none
      | none => none
    | _ => none
  else if kind = 0x54 then
    match payload with
    | q :: hi :: lo :: e :: rest =>
      if 1 ≤ e.toNat ∧ e.toNat ≤ 16 then
        (parseEntries e.toNat rest).map fun es => .roll { sequence := q, stamp := halfOf hi lo, entries := es }
      else none
    | _ => none
  else if kind = 0x55 then
    match payload with
    | q :: c :: stations =>
      if 1 ≤ c.toNat ∧ c.toNat ≤ 16 ∧ stations.length = c.toNat then some (.roster { sequence := q, stations := stations })
      else none
    | _ => none
  else if kind = 0x56 then
    match payload with
    | [q] => some (.probe q)
    | _ => none
  else none

/-- The content of a frame read back, its CRC already checked. -/
def parseContent : List Byte → Option Frame
  | kind :: origin :: hop :: payload =>
    if origin.toNat < 16 then
      (parseBody kind payload).map fun b => { origin := Fin.ofNat 16 origin.toNat, hop := hop, body := b }
    else none
  | _ => none

/-- The receiver's format check (R162): none is a format discard. -/
def parseFrame (bytes : List Byte) : Option Frame :=
  if bytes.length < 6 then none
  else if bytes.drop (bytes.length - 2) = halfBytes (crc16 (bytes.take (bytes.length - 2))) then
    parseContent (bytes.take (bytes.length - 2))
  else none

end Sys2Proof
end

