-- ==== Sys2Proof/Machine/State.lean ====
section
/-! DEFINITION. The state of one AL16 station, block by block as 00 (BLOCK DIAGRAM) names them, all plain data, and the
state right after reset. A set is a list in increasing order without repeats, so that equal sets are equal data (log 28). -/

namespace Sys2Proof.Machine

/-! ### Lease Table (01) -/

/-- Note status and note in one (R1): the note is there exactly with PRESENT. -/
inductive Note where
  | absent
  | present (bytes : List Byte)
  | unknown
  deriving DecidableEq, Repr

/-- Another station's claim seen passing and not yet settled (R1). `age` counts character times (log 19). -/
structure Intent where
  originator : StationAddr
  mode       : Mode
  sequence   : Byte
  age        : Nat
  deriving DecidableEq, Repr

/-- A replica record (R1). The condition is computed from holders and intents. -/
structure ResourceRecord where
  mode    : Option Mode
  holders : List StationAddr
  intents : List Intent
  note    : Note
  deriving DecidableEq, Repr

/-- The phase of a local hold (R4). -/
inductive HoldPhase where
  | held
  | releasing
  deriving DecidableEq, Repr

/-- An entry of the local hold list (R4). -/
structure HoldEntry where
  resource : Resource
  mode     : Mode
  clients  : List (Client × Byte)
  phase    : HoldPhase
  deriving DecidableEq, Repr

/-- The Lease Table: the replica (R1) and the local hold list, in the order in which entries were added (R4). -/
structure LeaseTable where
  replica : Vector ResourceRecord 64
  holds   : List HoldEntry
  deriving DecidableEq, Repr

/-! ### Claim Engine (02) -/

/-- The phase of an outstanding claim (R31). -/
inductive ClaimPhase where
  | queued
  | circulating
  deriving DecidableEq, Repr

/-- An entry of the outstanding-claim list (R31). `timer` is the circuit timer in character times, which runs while the
entry is CIRCULATING (R36, log 19). -/
structure ClaimEntry where
  resource : Resource
  mode     : Mode
  sequence : Byte
  patience : Nat
  yielding : Bool
  cancel   : Bool
  slot     : SlotIx
  phase    : ClaimPhase
  timer    : Nat
  deriving DecidableEq, Repr

/-- The Claim Engine: the outstanding-claim list, oldest first (R31), and the claim sequence counter (R32). -/
structure ClaimEngine where
  claims   : List ClaimEntry
  sequence : Byte
  deriving DecidableEq, Repr

/-! ### Request Table (04) -/

/-- The status of a completion (R207). -/
inductive Status where
  | ok
  | noteDropped
  | busy
  | lost
  | cancelled
  | aborted
  | tooLate
  | badField
  | badOrder
  | duplicate
  | clientFaulted
  | notHeld
  | notFound
  | tooMany
  | notReady
  deriving DecidableEq, Repr

/-- The stage of an ACQUIRE (R77); every other kind completes with the first (R109). -/
inductive Stage where
  | first
  | second
  deriving DecidableEq, Repr

/-- A hold granted to a local client, fixed when it is gained (R71). -/
structure Group where
  resource : Resource
  mode     : Mode
  note     : Note
  deriving DecidableEq, Repr

/-- The condition of a replica record (R1). -/
inductive Condition where
  | free
  | claimed
  | held
  deriving DecidableEq, Repr

/-- What a QUERY is handed (R27). -/
structure Snapshot where
  condition  : Condition
  mode       : Option Mode
  holders    : List StationAddr
  intents    : List (StationAddr × Mode)
  note       : Note
  clients    : List (Client × Byte)
  deriving DecidableEq, Repr

/-- The content of a completion record (R109). -/
inductive Content where
  | none
  | groups (gs : List Group)
  | snapshot (q : Snapshot)
  | counters (format hop overflow : Half)
  deriving DecidableEq, Repr

/-- A completion record (R109, R207). -/
structure Completion where
  client  : Client
  tag     : Byte
  kind    : RequestKind
  status  : Status
  stage   : Stage
  content : Content
  deriving DecidableEq, Repr

/-- The seven station states (R137). -/
inductive StationState where
  | unconfigured
  | joining
  | active
  | broken
  | resync
  | leaving
  | halted
  deriving DecidableEq, Repr

/-- The causes of STATE notices (R157). -/
inductive NoticeCause where
  | configured
  | rollDone
  | linkLost
  | linkRestored
  | leaveDone
  | duplicateAddress
  | restart
  deriving DecidableEq, Repr

/-- A notice (R129, R157). -/
inductive Notice where
  | state (cause : NoticeCause) (before after : StationState)
  | roster (sequence : Byte) (first : StationAddr) (count : Nat) (added departed : List StationAddr)
  deriving DecidableEq, Repr

/-- A record of the completion queue (R105). -/
inductive QueueRecord where
  | completion (c : Completion)
  | notice (n : Notice)
  deriving DecidableEq, Repr

/-- Why a claim was withdrawn (R58). -/
inductive WithdrawCause where
  | cancelled
  | leaving
  deriving DecidableEq, Repr

/-- The Claim Engine's report that a slot in SETTLING holds (R58). -/
inductive Report where
  | granted
  | refused
  | withdrawn (cause : WithdrawCause)
  | lostCircuit
  deriving DecidableEq, Repr

/-- The request a slot holds, its fields as written in the record (R77, R206). -/
inductive Request where
  | configure (interval : Byte) (units : Half) (retry : Byte)
  | acquire (resource mode wait : Byte) (followOn : Option Byte)
  | release (resource : Byte) (note : List Byte)
  | cancel (target : Byte)
  | query (resource : Byte)
  | stats
  | clearFault
  | leave
  | restart
  deriving DecidableEq, Repr

/-- The kind of a request (R77). -/
def Request.kind : Request → RequestKind
  | .configure _ _ _ => .configure
  | .acquire _ _ _ _ => .acquire
  | .release _ _     => .release
  | .cancel _        => .cancel
  | .query _         => .query
  | .stats           => .stats
  | .clearFault      => .clearFault
  | .leave           => .leave
  | .restart         => .restart

/-- The state of an occupied slot (R78). -/
inductive SlotPhase where
  | waiting
  | claiming
  | settling
  | releasing
  | posting
  deriving DecidableEq, Repr

/-- The ACQUIRE fields of a slot whose request passed the checks of R84 (R77, R85). The current resource is computed from
stage, first and followOn (log 25). -/
structure Acquire where
  first    : Resource
  mode     : Mode
  wait     : Bool
  followOn : Option Resource
  stage    : Stage
  patience : Nat
  lost     : Nat
  report   : Option Report
  groups   : List Group
  deriving DecidableEq, Repr

/-- An occupied request slot (R77). `accept` is the acceptance number. `completion` is the record to post, or the one that
becomes ready at the transmission of the slot's RELEASE frame (log 31). -/
structure Slot where
  client     : Client
  tag        : Byte
  request    : Request
  phase      : SlotPhase
  accept     : Nat
  acquire    : Option Acquire
  completion : Option Completion
  deriving DecidableEq, Repr

/-- The Request Table: the slots (R77), the client fault flags (R82), the completion queue, oldest first (R105), and the
slots in POSTING, earliest made ready first (R106, log 31). -/
structure RequestTable where
  slots   : Vector (Option Slot) 8
  faults  : Vector Bool 8
  queue   : List QueueRecord
  posting : List SlotIx
  deriving DecidableEq, Repr

/-! ### Roll Unit (05) -/

/-- The phase of the outstanding roll (R111). -/
inductive RollPhase where
  | queued
  | circulating
  | abandoned
  deriving DecidableEq, Repr

/-- This station's own roll (R111). `age` counts character times (log 19). -/
structure OutstandingRoll where
  sequence : Byte
  stamp    : Half
  phase    : RollPhase
  sent     : Bool
  age      : Nat
  deriving DecidableEq, Repr

/-- The identity of the last own roll that was sent and did not come home (R111, R132). `age` counts character times (log 19). -/
structure RetiredRoll where
  sequence : Byte
  stamp    : Half
  age      : Nat
  deriving DecidableEq, Repr

/-- A member of the roster (R113). -/
structure RosterEntry where
  address : StationAddr
  fresh   : Bool
  deriving DecidableEq, Repr

/-- The Roll Unit (R111). `timer`, in character times, is none while the roll timer is stopped; `held` says that an origination waits for this
station's ROSTER to be transmitted (R116). -/
structure RollUnit where
  outstanding : Option OutstandingRoll
  retired     : Option RetiredRoll
  timer       : Option Nat
  sequence    : Byte
  roster      : List RosterEntry
  held        : Bool
  deriving DecidableEq, Repr

/-! ### Station Controller (06) -/

/-- The three values that CONFIGURE sets (R137). -/
structure Configuration where
  interval : Byte
  units    : Half
  retry    : Byte
  deriving DecidableEq, Repr

/-- The Station Controller (R137). `config` is none while the values are unset. `subMicro` counts the character times
within the present microsecond (log 19). -/
structure StationController where
  state    : StationState
  address  : StationAddr
  config   : Option Configuration
  micros   : Half
  subMicro : Nat
  deriving DecidableEq, Repr

/-! ### Ring Port, Outbound Queue and probe unit (07) -/

/-- What a link carries in one character time (R158): a character, a code violation, or nothing recognised. -/
inductive LinkChar where
  | idle
  | start
  | endChar
  | data (b : Byte)
  | violation
  | silence
  deriving DecidableEq, Repr

/-- The receiver's condition, with the bytes of the frame being received (R159). -/
inductive Receiver where
  | hunting
  | inFrame (bytes : List Byte)
  deriving DecidableEq, Repr

/-- A frame completed by END and in its processing time; `left` counts character times (R163). -/
structure Arrived where
  bytes : List Byte
  left  : Nat
  deriving DecidableEq, Repr

/-- What the transmitter is doing (R158, R173). `sent` counts the characters of the frame sent so far, START included. -/
inductive Transmitter where
  | silent
  | idle
  | gap (left : Nat)
  | sendingOwn (sent : Nat)
  | sendingForwarded (sent : Nat)
  | endDue
  deriving DecidableEq, Repr

/-- The Ring Port (R158 to R177). The loss and the settle timer count character times (R160). -/
structure RingPort where
  linkUp        : Bool
  lossTimer     : Option Nat
  settleTimer   : Option Nat
  receiver      : Receiver
  processing    : List Arrived
  forwarding    : List Frame
  transmitter   : Transmitter
  relief        : Nat
  formatCount   : Half
  hopCount      : Half
  overflowCount : Half
  txLine        : LinkChar
  deriving DecidableEq, Repr

/-- A frame of this station in the Outbound Queue, with the slot it belongs to where it has one (R169). -/
structure OwnFrame where
  frame : Frame
  owner : Option SlotIx
  deriving DecidableEq, Repr

/-- The phase of the probe unit (R178). -/
inductive ProbePhase where
  | idle
  | queued
  | out
  deriving DecidableEq, Repr

/-- The probe unit (R178). `timer` counts steps of the microsecond counter (R181, log 19). -/
structure ProbeUnit where
  phase    : ProbePhase
  sequence : Byte
  sendTime : Half
  timer    : Nat
  time     : Half
  done     : Bool
  busy     : Bool
  deriving DecidableEq, Repr

/-! ### Host Port (08) -/

/-- The request assembly buffer (R185). -/
inductive Assembly where
  | empty
  | kind (kind : Byte)
  | counting (stored : List Byte) (declared : Byte) (count : Nat)
  deriving DecidableEq, Repr

/-- The Host Port (R185, R190, R193, R195, R197). `dataOut` is the byte the last read command drove onto D7 to D0. -/
structure HostPort where
  assembly      : Assembly
  readPos       : Nat
  refused       : Bool
  noticeLost    : Bool
  recordInt     : Bool
  noticeLostInt : Bool
  hiLatch       : Byte
  dataOut       : Byte
  deriving DecidableEq, Repr

/-! ### The station -/

/-- One AL16 station, its supply and RESET pin (`porTimer` counts the character times for which the supply has stayed above 2.7 V in
a power-on reset, log 30), the level of its straps ADR3 to ADR0 (R139), the characters its receive line will carry (log 5), and the queue of
commands waiting, oldest first (log 1). -/
structure State where
  supplyLow : Bool
  resetLow  : Bool
  porTimer  : Nat
  straps    : StationAddr
  rxLine    : List LinkChar
  station   : StationController
  lease     : LeaseTable
  claim     : ClaimEngine
  table     : RequestTable
  roll      : RollUnit
  ring      : RingPort
  outbound  : List OwnFrame
  probe     : ProbeUnit
  host      : HostPort
  pending   : List Instr
  deriving DecidableEq, Repr

/-- No command stops the part: the data sheet names no event after which it does not go on. -/
inductive Fault where
  deriving DecidableEq, Repr

/-- Why a command has no meaning. -/
inductive Refusal where
  /-- Raised by `exec` for a command whose meaning is not written; no command of this model answers it. Safe. -/
  | notModelled (mnemonic : String)
  deriving DecidableEq, Repr

/-! ### Initial values -/

/-- A replica record at reset and after RESTART: FREE, note UNKNOWN (R29). -/
def ResourceRecord.initial : ResourceRecord :=
  { mode := none, holders := [], intents := [], note := .unknown }

/-- R29. -/
def LeaseTable.initial : LeaseTable :=
  { replica := Vector.replicate 64 ResourceRecord.initial, holds := [] }

/-- R62. -/
def ClaimEngine.initial : ClaimEngine :=
  { claims := [], sequence := 0 }

/-- R110. -/
def RequestTable.initial : RequestTable :=
  { slots := Vector.replicate 8 none, faults := Vector.replicate 8 false, queue := [], posting := [] }

/-- R136. -/
def RollUnit.initial : RollUnit :=
  { outstanding := none, retired := none, timer := none, sequence := 0, roster := [], held := false }

/-- R140: UNCONFIGURED, the configuration values unset, the microsecond counter 0, and the latched address. -/
def StationController.initial (address : StationAddr) : StationController :=
  { state := .unconfigured, address := address, config := none, micros := 0, subMicro := 0 }

/-- R182. -/
def RingPort.initial : RingPort :=
  { linkUp := false, lossTimer := none, settleTimer := none, receiver := .hunting, processing := [],
    forwarding := [], transmitter := .silent, relief := 0, formatCount := 0, hopCount := 0,
    overflowCount := 0, txLine := .silence }

/-- R182; send time and timer: log 17. -/
def ProbeUnit.initial : ProbeUnit :=
  { phase := .idle, sequence := 0, sendTime := 0, timer := 0, time := 0, done := false, busy := false }

/-- R200; the data bus: log 17. -/
def HostPort.initial : HostPort :=
  { assembly := .empty, readPos := 0, refused := false, noticeLost := false, recordInt := false,
    noticeLostInt := false, hiLatch := 0, dataOut := 0 }

/-- Every block at its initial values, with an address latched from the straps (R139, R140). -/
def State.initial (address : StationAddr) : State :=
  { supplyLow := false, resetLow := false, porTimer := 0, straps := address, rxLine := [], station := StationController.initial address,
    lease := LeaseTable.initial, claim := ClaimEngine.initial, table := RequestTable.initial,
    roll := RollUnit.initial, ring := RingPort.initial, outbound := [], probe := ProbeUnit.initial,
    host := HostPort.initial, pending := [] }

/-- The station right after reset (R140), its straps read as 0 (log 16). -/
def State.reset : State := State.initial 0

end Sys2Proof.Machine
end

