-- ==== Sys2Proof/Machine/Operands.lean ====
section
/-! DEFINITION. The operand forms of the host port: request records (R187, R206), and the byte layouts of completion
records and notices (R207). -/

namespace Sys2Proof

/-! ### Request records -/

/-- The kind codes of requests (R206). -/
def RequestKind.code : RequestKind → Byte
  | .configure  => 1
  | .acquire    => 2
  | .release    => 3
  | .cancel     => 4
  | .query      => 5
  | .stats      => 6
  | .clearFault => 7
  | .leave      => 8
  | .restart    => 9

/-- The request kind a kind byte names, if any (R187, R206). -/
def requestKindOf (b : Byte) : Option RequestKind :=
  if b = 1 then some .configure
  else if b = 2 then some .acquire
  else if b = 3 then some .release
  else if b = 4 then some .cancel
  else if b = 5 then some .query
  else if b = 6 then some .stats
  else if b = 7 then some .clearFault
  else if b = 8 then some .leave
  else if b = 9 then some .restart
  else none

/-- The byte at offset 4 + i of a record. -/
def HostRecord.field (r : HostRecord) (i : Nat) : Byte := r.body.getD i 0

/-- The declared lengths a kind allows, and for a RELEASE the note length that must agree with it (R187, R206). -/
def lengthAllowed (k : RequestKind) (r : HostRecord) : Bool :=
  match k with
  | .configure  => decide (r.declared.toNat = 8)
  | .acquire    => decide (r.declared.toNat = 7) || decide (r.declared.toNat = 8)
  | .release    => decide ((r.field 1).toNat ≤ 32) && decide (r.declared.toNat = 6 + (r.field 1).toNat)
  | .cancel     => decide (r.declared.toNat = 5)
  | .query      => decide (r.declared.toNat = 5)
  | .stats      => decide (r.declared.toNat = 4)
  | .clearFault => decide (r.declared.toNat = 4)
  | .leave      => decide (r.declared.toNat = 4)
  | .restart    => decide (r.declared.toNat = 4)

/-- The form of a committed record is good: not malformed by R187. -/
def formOk (k : RequestKind) (r : HostRecord) : Bool :=
  r.wf && lengthAllowed k r && decide (r.client.toNat ≤ 7)

/-- The client a well-formed record names (R206). -/
def HostRecord.clientNo (r : HostRecord) : Client := Fin.ofNat 8 r.client.toNat

end Sys2Proof

namespace Sys2Proof.Machine

/-- The request a well-formed record holds (R206). An ACQUIRE carries a follow-on resource exactly at declared length 8 (R187). -/
def requestOf (k : RequestKind) (r : HostRecord) : Request :=
  match k with
  | .configure  => .configure (r.field 0) (halfOf (r.field 1) (r.field 2)) (r.field 3)
  | .acquire    => .acquire (r.field 0) (r.field 1) (r.field 2) (if r.declared.toNat = 8 then some (r.field 3) else none)
  | .release    => .release (r.field 0) ((r.body.drop 2).take (r.field 1).toNat)
  | .cancel     => .cancel (r.field 0)
  | .query      => .query (r.field 0)
  | .stats      => .stats
  | .clearFault => .clearFault
  | .leave      => .leave
  | .restart    => .restart

/-- The mode a mode byte of a request names (R201): 00h and the values above 02h name none. -/
def requestMode (b : Byte) : Option Mode :=
  if b = 1 then some .shared
  else if b = 2 then some .exclusive
  else none

/-- The wait flag a wait byte names (R206). -/
def requestWait (b : Byte) : Option Bool :=
  if b = 0 then some false
  else if b = 1 then some true
  else none

/-- A resource byte of a request, when it names a resource (R206). -/
def requestResource (b : Byte) : Option Resource :=
  if h : b.toNat < 64 then some ⟨b.toNat, h⟩ else none

/-! ### Completion records and notices (R207) -/

/-- The status codes (R207). -/
def Status.code : Status → Byte
  | .ok            => 0x00
  | .noteDropped   => 0x01
  | .busy          => 0x10
  | .lost          => 0x11
  | .cancelled     => 0x12
  | .aborted       => 0x13
  | .tooLate       => 0x14
  | .badField      => 0x20
  | .badOrder      => 0x21
  | .duplicate     => 0x22
  | .clientFaulted => 0x23
  | .notHeld       => 0x24
  | .notFound      => 0x25
  | .tooMany       => 0x26
  | .notReady      => 0x30

/-- The stage byte (R207). -/
def Stage.code : Stage → Byte
  | .first  => 1
  | .second => 2

/-- The mode byte of records: 00h absent (R201). -/
def recordModeByte : Option Mode → Byte
  | none            => 0
  | some .shared    => 1
  | some .exclusive => 2

/-- The note status byte (R207). -/
def Note.statusByte : Note → Byte
  | .absent    => 0
  | .present _ => 1
  | .unknown   => 2

/-- The note bytes, none unless PRESENT (R207). -/
def Note.bytes : Note → List Byte
  | .absent    => []
  | .present b => b
  | .unknown   => []

/-- The bytes of one group (R207). -/
def Group.bytes (g : Group) : List Byte :=
  BitVec.ofNat 8 g.resource.val :: recordModeByte (some g.mode) :: g.note.statusByte ::
    BitVec.ofNat 8 g.note.bytes.length :: g.note.bytes

/-- The condition byte (R207). -/
def Condition.code : Condition → Byte
  | .free    => 0
  | .claimed => 1
  | .held    => 2

/-- An intent in a QUERY record: originator, and bit 7 for EXCLUSIVE (R207). -/
def intentByte (i : StationAddr × Mode) : Byte :=
  BitVec.ofNat 8 (i.1.val + 128 * (if i.2 = .exclusive then 1 else 0))

/-- A client and its tag (R207). -/
def clientBytes (c : Client × Byte) : List Byte := [BitVec.ofNat 8 c.1.val, c.2]

/-- The bytes of a snapshot (R207). A QUERY record carries the note's length and not the note. -/
def Snapshot.bytes (q : Snapshot) : List Byte :=
  q.condition.code :: recordModeByte q.mode ::
    (BitVec.ofNat 8 q.holders.length :: q.holders.map addrByte) ++
    (BitVec.ofNat 8 q.intents.length :: q.intents.map intentByte) ++
    (q.note.statusByte :: BitVec.ofNat 8 q.note.bytes.length ::
      BitVec.ofNat 8 q.clients.length :: q.clients.flatMap clientBytes)

/-- The bytes of a completion record from offset 6 (R207). -/
def Content.bytes : Content → List Byte
  | .none => []
  | .groups gs => gs.flatMap Group.bytes
  | .snapshot q => q.bytes
  | .counters f h o => halfBytes f ++ halfBytes h ++ halfBytes o

/-- The bytes of a completion record (R207). -/
def Completion.bytes (c : Completion) : List Byte :=
  BitVec.ofNat 8 (6 + c.content.bytes.length) :: BitVec.ofNat 8 c.client.val :: c.tag :: c.kind.code ::
    c.status.code :: c.stage.code :: c.content.bytes

/-- The station state codes (R207). -/
def StationState.code : StationState → Nat
  | .unconfigured => 0
  | .joining      => 1
  | .active       => 2
  | .broken       => 3
  | .resync       => 4
  | .leaving      => 5
  | .halted       => 6

/-- The cause codes of STATE notices (R207). -/
def NoticeCause.code : NoticeCause → Byte
  | .configured       => 1
  | .rollDone         => 2
  | .linkLost         => 3
  | .linkRestored     => 4
  | .leaveDone        => 5
  | .duplicateAddress => 6
  | .restart          => 7

/-- The bytes of a notice (R207). -/
def Notice.bytes : Notice → List Byte
  | .state cause before after =>
    [5, cause.code, BitVec.ofNat 8 before.code, 0x81, BitVec.ofNat 8 after.code]
  | .roster q first count added departed =>
    BitVec.ofNat 8 (7 + added.length + departed.length) :: q :: addrByte first :: 0x82 :: BitVec.ofNat 8 count ::
      (BitVec.ofNat 8 added.length :: added.map addrByte) ++
      (BitVec.ofNat 8 departed.length :: departed.map addrByte)

/-- The bytes of a record of the completion queue (R207). -/
def QueueRecord.bytes : QueueRecord → List Byte
  | .completion c => c.bytes
  | .notice n => n.bytes

/-- Whether a record of the queue is a completion record (R105). -/
def QueueRecord.isCompletion : QueueRecord → Bool
  | .completion _ => true
  | .notice _ => false

end Sys2Proof.Machine
end

