-- ==== Sys2Proof/Machine/Flags.lean ====
section
/-! DEFINITION. The flags and outputs that are computed from the state (log 25): reset, BYPASS, RECORD_READY, ASSEMBLING,
INT#, the bytes the eight port addresses read as (R183, R208), and the counters' ways of counting. -/

namespace Sys2Proof.Machine

/-- Power-on reset is in progress or a RESET assertion is held (R211). -/
def State.inReset (s : State) : Bool := s.supplyLow || s.resetLow

/-- The station is on the ring by its state: every state but UNCONFIGURED and HALTED (R176). -/
def StationState.onRing : StationState → Bool
  | .unconfigured => false
  | .joining      => true
  | .active       => true
  | .broken       => true
  | .resync       => true
  | .leaving      => true
  | .halted       => false

/-- BYPASS is asserted (R176). -/
def State.bypassAsserted (s : State) : Bool := s.inReset || !s.station.state.onRing

/-- RECORD_READY follows the completion queue (R193). -/
def State.recordReady (s : State) : Bool := !s.table.queue.isEmpty

/-- ASSEMBLING: the request assembly buffer is in KIND or COUNTING (R193). -/
def State.assembling (s : State) : Bool :=
  match s.host.assembly with
  | .empty => false
  | .kind _ => true
  | .counting _ _ _ => true

/-- INT# is asserted (R196). -/
def State.intAsserted (s : State) : Bool :=
  !s.inReset && ((s.recordReady && s.host.recordInt) || (s.host.noticeLost && s.host.noticeLostInt))

/-- A byte whose bit i is set exactly when the i-th flag is. -/
def byteOfFlags (flags : List Bool) : Byte :=
  BitVec.ofNat 8 (flags.foldr (fun f n => f.toNat + 2 * n) 0)

/-- The STATUS byte (R193, R208). -/
def State.statusByte (s : State) : Byte :=
  byteOfFlags [s.host.refused, s.host.noticeLost, s.probe.done, s.probe.busy, s.recordReady, s.assembling]

/-- The INTMASK byte (R195, R208). -/
def State.intmaskByte (s : State) : Byte := byteOfFlags [s.host.recordInt, s.host.noticeLostInt]

/-- The IDENT byte (R198, R208). -/
def State.identByte (s : State) : Byte :=
  BitVec.ofNat 8 (s.station.address.val + 16 * s.station.state.code)

/-- The byte a read of COMPLETION presents (R190, R191). -/
def State.completionByte (s : State) : Byte :=
  match s.table.queue with
  | [] => 0
  | r :: _ => r.bytes.getD s.host.readPos 0

/-- The low byte of a two-byte value (R197). -/
def loByte (h : Half) : Byte := BitVec.ofNat 8 h.toNat

/-- The high byte of a two-byte value (R197). -/
def hiByte (h : Half) : Byte := BitVec.ofNat 8 (h.toNat / 256)

/-- The byte a read cycle presents at each of the eight port addresses (R183); 0 during reset (R184). -/
def portRead (address : Fin 8) (s : State) : Byte :=
  if s.inReset then 0
  else match address with
    | 0 => 0
    | 1 => s.completionByte
    | 2 => s.statusByte
    | 3 => s.intmaskByte
    | 4 => loByte s.probe.time
    | 5 => s.host.hiLatch
    | 6 => 0
    | 7 => s.identByte

/-- The effect of a write to STATUS (R189, R194, R208): each sticky flag whose bit is 1 is cleared, bit 7 abandons a
partly written request, all as one change. -/
def State.statusWrite (b : Byte) (s : State) : State :=
  { s with
    host := { s.host with
      refused := s.host.refused && !b.getLsbD 0
      noticeLost := s.host.noticeLost && !b.getLsbD 1
      assembly := if b.getLsbD 7 then .empty else s.host.assembly }
    probe := { s.probe with
      done := s.probe.done && !b.getLsbD 2
      busy := s.probe.busy && !b.getLsbD 3 } }

/-- The effect of a write to INTMASK (R195, R208). -/
def State.intmaskWrite (b : Byte) (s : State) : State :=
  { s with host := { s.host with recordInt := b.getLsbD 0, noticeLostInt := b.getLsbD 1 } }

/-- A discard counter saturates at 65,535 (R175). -/
def saturatingSucc (h : Half) : Half := if h = 0xFFFF then h else h + 1

/-- The format counter is raised (R175). -/
def State.countFormat (s : State) : State :=
  { s with ring := { s.ring with formatCount := saturatingSucc s.ring.formatCount } }

/-- The hop-limit counter is raised (R175). -/
def State.countHop (s : State) : State :=
  { s with ring := { s.ring with hopCount := saturatingSucc s.ring.hopCount } }

/-- The overflow counter is raised (R175). -/
def State.countOverflow (s : State) : State :=
  { s with ring := { s.ring with overflowCount := saturatingSucc s.ring.overflowCount } }

/-- REFUSED is set (R187, R188). -/
def State.setRefused (s : State) : State := { s with host := { s.host with refused := true } }

end Sys2Proof.Machine
end

