-- ==== Sys2Proof/Machine/Lease.lean ====
section
/-! DEFINITION. The changes of replica records and of the local hold list (R1 to R27), and the questions the Lease Table
answers. -/

namespace Sys2Proof.Machine

/-- Two modes conflict on one resource: at least one is EXCLUSIVE (R37). -/
def conflicting (a b : Mode) : Bool := decide (a = .exclusive) || decide (b = .exclusive)

/-! ### Sets as increasing lists (log 28) -/

/-- An address joins a set. -/
def insertAddr (x : StationAddr) : List StationAddr → List StationAddr
  | [] => [x]
  | y :: ys => if x < y then x :: y :: ys else if x = y then y :: ys else y :: insertAddr x ys

/-- An intent joins a set keyed by originator, replacing one of the same originator (R1, R10). -/
def insertIntent (i : Intent) : List Intent → List Intent
  | [] => [i]
  | j :: js =>
    if i.originator < j.originator then i :: j :: js
    else if i.originator = j.originator then i :: js
    else j :: insertIntent i js

/-- A client with its tag joins a set keyed by client (R4). -/
def insertClient (p : Client × Byte) : List (Client × Byte) → List (Client × Byte)
  | [] => [p]
  | q :: qs => if p.1 < q.1 then p :: q :: qs else if p.1 = q.1 then p :: qs else q :: insertClient p qs

/-! ### One record -/

/-- R1. -/
def ResourceRecord.condition (r : ResourceRecord) : Condition :=
  if r.holders ≠ [] then .held else if r.intents ≠ [] then .claimed else .free

/-- A station leaves the holders; the mode goes with the last holder (R10, R13, R15, R23). -/
def ResourceRecord.dropHolder (x : StationAddr) (r : ResourceRecord) : ResourceRecord :=
  let left := r.holders.filter (fun y => decide (y ≠ x))
  { r with holders := left, mode := if left = [] then none else r.mode }

/-- The intent of a station leaves the record (R11, R17, R23). -/
def ResourceRecord.dropIntent (x : StationAddr) (r : ResourceRecord) : ResourceRecord :=
  { r with intents := r.intents.filter (fun i => decide (i.originator ≠ x)) }

/-- The intent of a station, if the record has one. -/
def ResourceRecord.intentOf (x : StationAddr) (r : ResourceRecord) : Option Intent :=
  r.intents.find? (fun i => decide (i.originator = x))

/-- A claim of another station is recorded; its originator leaves the holders (R10). -/
def ResourceRecord.recordIntent (i : Intent) (r : ResourceRecord) : ResourceRecord :=
  let r' := r.dropHolder i.originator
  { r' with intents := insertIntent i r'.intents }

/-- A station becomes a holder (R11, R14, R19): EXCLUSIVE alone, SHARED beside SHARED holders; its own intent leaves. -/
def ResourceRecord.grant (x : StationAddr) (m : Mode) (r : ResourceRecord) : ResourceRecord :=
  { r.dropIntent x with
    holders :=
      match m with
      | .exclusive => [x]
      | .shared => if r.mode = some .exclusive then [x] else insertAddr x r.holders
    mode := some m }

/-- The note that a release leaves: PRESENT with 1 to 32 bytes, else ABSENT (R13, R15). -/
def noteOf (bytes : List Byte) : Note := if bytes = [] then .absent else .present bytes

/-- A release sets the note when its mode is EXCLUSIVE (R13, R15). -/
def ResourceRecord.releaseNote (m : Mode) (note : List Byte) (r : ResourceRecord) : ResourceRecord :=
  match m with
  | .exclusive => { r with note := noteOf note }
  | .shared => r

/-- A release: the station leaves the holders and an EXCLUSIVE release sets the note (R13, R15). -/
def ResourceRecord.release (x : StationAddr) (m : Mode) (note : List Byte) (r : ResourceRecord) : ResourceRecord :=
  (r.dropHolder x).releaseNote m note

/-- Reclaim of a list of stations from one record (R23). -/
def ResourceRecord.reclaim (zs : List StationAddr) (r : ResourceRecord) : ResourceRecord :=
  zs.foldl (fun r z => (r.dropHolder z).dropIntent z) r

/-- Holders and intents cleared, the note kept (R19, R21). -/
def ResourceRecord.cleared (r : ResourceRecord) : ResourceRecord :=
  { r with mode := none, holders := [], intents := [] }

/-- One character time passes for the intents (R17). -/
def ResourceRecord.tick (r : ResourceRecord) : ResourceRecord :=
  { r with intents := r.intents.map (fun i => { i with age := i.age + 1 }) }

/-- The record shows a conflict for mode m at this station (R25). -/
def ResourceRecord.showsConflict (self : StationAddr) (m : Mode) (r : ResourceRecord) : Bool :=
  (r.holders.any (fun y => decide (y ≠ self)) && (decide (r.mode = some .exclusive) || decide (m = .exclusive))) ||
    r.intents.any (fun i => conflicting i.mode m)

/-! ### The table -/

/-- The record of a resource. -/
def LeaseTable.record (k : Resource) (l : LeaseTable) : ResourceRecord := l.replica[k]

/-- One record changed. -/
def LeaseTable.modify (k : Resource) (f : ResourceRecord → ResourceRecord) (l : LeaseTable) : LeaseTable :=
  { l with replica := l.replica.set k (f (l.record k)) }

/-- Every record changed. -/
def LeaseTable.mapRecords (f : ResourceRecord → ResourceRecord) (l : LeaseTable) : LeaseTable :=
  { l with replica := l.replica.map f }

/-- The local hold list's entry for a resource (R25). -/
def LeaseTable.hold? (k : Resource) (l : LeaseTable) : Option HoldEntry :=
  l.holds.find? (fun e => decide (e.resource = k))

/-- The entry for a resource in HELD phase. -/
def LeaseTable.heldEntry? (k : Resource) (l : LeaseTable) : Option HoldEntry :=
  l.holds.find? (fun e => decide (e.resource = k) && decide (e.phase = .held))

/-- A client is among the clients of a hold (R8, R84). -/
def HoldEntry.hasClient (c : Client) (e : HoldEntry) : Bool := e.clients.any (fun p => decide (p.1 = c))

/-- A client is among the clients of the entry for a resource. -/
def LeaseTable.clientHolds (c : Client) (k : Resource) (l : LeaseTable) : Bool :=
  match l.hold? k with
  | none => false
  | some e => e.hasClient c

/-- The entry for a resource changed. -/
def LeaseTable.modifyHold (k : Resource) (f : HoldEntry → HoldEntry) (l : LeaseTable) : LeaseTable :=
  { l with holds := l.holds.map (fun e => if e.resource = k then f e else e) }

/-- A client joins an entry (R7). -/
def HoldEntry.addClient (p : Client × Byte) (e : HoldEntry) : HoldEntry := { e with clients := insertClient p e.clients }

/-- A client leaves an entry (R8). -/
def HoldEntry.dropClient (c : Client) (e : HoldEntry) : HoldEntry :=
  { e with clients := e.clients.filter (fun p => decide (p.1 ≠ c)) }

/-- The entry goes to RELEASING with no clients (R64). -/
def HoldEntry.toReleasing (e : HoldEntry) : HoldEntry := { e with clients := [], phase := .releasing }

/-- The entry for a resource leaves the list at the transmission of its RELEASE; the entries behind it keep their order (R9). -/
def LeaseTable.removeHold (k : Resource) (l : LeaseTable) : LeaseTable :=
  { l with holds := l.holds.filter (fun e => decide (e.resource ≠ k)) }

/-- An own grant (R6, R14): a HELD entry at the tail, and this station a holder. -/
def LeaseTable.ownGrant (self : StationAddr) (k : Resource) (m : Mode) (p : Client × Byte) (l : LeaseTable) : LeaseTable :=
  let l' := l.modify k (ResourceRecord.grant self m)
  { l' with holds := l'.holds ++ [{ resource := k, mode := m, clients := [p], phase := .held }] }

/-- An own release is queued (R15, R64): the entry goes to RELEASING and this station leaves the holders. -/
def LeaseTable.ownRelease (self : StationAddr) (k : Resource) (m : Mode) (note : List Byte) (l : LeaseTable) : LeaseTable :=
  (l.modifyHold k HoldEntry.toReleasing).modify k (ResourceRecord.release self m note)

/-- Another station's conflicting claim meets an entry of the local hold list, in either phase (R26). -/
def LeaseTable.holdConflicts (k : Resource) (m : Mode) (l : LeaseTable) : Bool :=
  match l.hold? k with
  | none => false
  | some e => conflicting e.mode m

/-- The snapshot for a QUERY (R27). -/
def LeaseTable.snapshot (k : Resource) (l : LeaseTable) : Snapshot :=
  let r := l.record k
  { condition := r.condition
    mode := r.mode
    holders := r.holders
    intents := r.intents.map (fun i => (i.originator, i.mode))
    note := r.note
    clients := match l.hold? k with
      | none => []
      | some e => e.clients }

/-! ### Rebuild and reclaim -/

/-- The holds of one station applied in order (R19). -/
def LeaseTable.grantAll (y : StationAddr) (hs : List (Resource × Mode)) (l : LeaseTable) : LeaseTable :=
  hs.foldl (fun l h => l.modify h.1 (ResourceRecord.grant y h.2)) l

/-- One pending of a roll entry becomes an intent unless its station is a holder (R21). -/
def ResourceRecord.pend (y : StationAddr) (m : Mode) (q : Byte) (r : ResourceRecord) : ResourceRecord :=
  if r.holders.contains y then r
  else { r with intents := insertIntent { originator := y, mode := m, sequence := q, age := 0 } r.intents }

/-- The pendings of one entry recorded (R21). -/
def LeaseTable.pendAll (y : StationAddr) (ps : List (Byte × Byte)) (l : LeaseTable) : LeaseTable :=
  ps.foldl (fun l p => l.modify (resourceOf p.1) (ResourceRecord.pend y (holdByteMode p.1) p.2)) l

/-- The entries of other stations (R20, R21). -/
def foreignEntries (self : StationAddr) (es : List RollEntry) : List RollEntry :=
  es.filter (fun e => decide (addressOf e.addr ≠ self))

/-- This station's holds as the rebuild applies them: the HELD entries, in list order (R20). -/
def LeaseTable.heldPairs (l : LeaseTable) : List (Resource × Mode) :=
  (l.holds.filter (fun e => decide (e.phase = .held))).map (fun e => (e.resource, e.mode))

/-- The rebuild from a completed roll (R19 to R21). -/
def LeaseTable.rebuild (self : StationAddr) (es : List RollEntry) (l : LeaseTable) : LeaseTable :=
  let cleared := (l.mapRecords ResourceRecord.cleared).grantAll self l.heldPairs
  let granted := (foreignEntries self es).foldl
    (fun l e => l.grantAll (addressOf e.addr) (e.holds.map (fun b => (resourceOf b, holdByteMode b)))) cleared
  (foreignEntries self es).foldl (fun l e => l.pendAll (addressOf e.addr) e.pendings) granted

/-- The record holds one of the named stations as holder or intent (R23). -/
def ResourceRecord.names (zs : List StationAddr) (r : ResourceRecord) : Bool :=
  zs.any (fun z => r.holders.contains z || (r.intentOf z).isSome)

/-- Reclaim over the whole replica, as one change (R23). -/
def LeaseTable.reclaim (zs : List StationAddr) (l : LeaseTable) : LeaseTable :=
  l.mapRecords (ResourceRecord.reclaim zs)

/-- The resources a reclaim offers, in increasing number (R23). -/
def LeaseTable.reclaimed (zs : List StationAddr) (l : LeaseTable) : List Resource :=
  (List.finRange 64).filter (fun k => (l.record k).names zs)

/-- The Lease Table at entry to HALTED with cause DUPLICATE_ADDRESS (R30). -/
def LeaseTable.halt (self : StationAddr) (l : LeaseTable) : LeaseTable :=
  { l.mapRecords (ResourceRecord.dropHolder self) with holds := [] }

end Sys2Proof.Machine
end

