-- ==== Sys2Proof/Machine/Requests.lean ====
section
/-! DEFINITION. The Request Table's slots, acceptance order, completion queue and posting (R77 to R81, R105 to R109). -/

namespace Sys2Proof.Machine

/-- The resource an ACQUIRE seeks now (R77). -/
def Acquire.current (a : Acquire) : Resource :=
  match a.stage with
  | .first => a.first
  | .second => a.followOn.getD a.first

/-- The stage a completion of this slot carries (R109). -/
def Slot.stage (sl : Slot) : Stage :=
  match sl.acquire with
  | none => .first
  | some a => a.stage

/-- The completion record of a slot (R109). -/
def Slot.record (sl : Slot) (status : Status) (content : Content) : Completion :=
  { client := sl.client, tag := sl.tag, kind := sl.request.kind, status := status, stage := sl.stage, content := content }

/-- The slot is in WAITING, CLAIMING or SETTLING (R86). -/
def SlotPhase.stands : SlotPhase → Bool
  | .waiting   => true
  | .claiming  => true
  | .settling  => true
  | .releasing => false
  | .posting   => false

/-- The resource an ACQUIRE slot stands for (R86). -/
def Slot.standsFor (sl : Slot) : Option Resource :=
  match sl.acquire with
  | none => none
  | some a => if sl.phase.stands then some a.current else none

/-- The resource an ACQUIRE slot in WAITING waits for (R92). -/
def Slot.waitsFor (sl : Slot) : Option Resource :=
  match sl.acquire with
  | none => none
  | some a => if sl.phase = .waiting then some a.current else none

/-- The slot of a number: none when free (R77). -/
def RequestTable.slot (i : SlotIx) (t : RequestTable) : Option Slot := t.slots[i]

/-- A slot written. -/
def RequestTable.setSlot (i : SlotIx) (o : Option Slot) (t : RequestTable) : RequestTable :=
  { t with slots := t.slots.set i o }

/-- An occupied slot changed; a free one stays free. -/
def RequestTable.modifySlot (i : SlotIx) (f : Slot → Slot) (t : RequestTable) : RequestTable :=
  match t.slot i with
  | none => t
  | some sl => t.setSlot i (some (f sl))

/-- The ACQUIRE fields of a slot changed. -/
def RequestTable.modifyAcquire (i : SlotIx) (f : Acquire → Acquire) (t : RequestTable) : RequestTable :=
  t.modifySlot i (fun sl => { sl with acquire := sl.acquire.map f })

/-- A slot placed in a list of (acceptance number, slot) kept in increasing order. -/
def insertByAccept (p : Nat × SlotIx) : List (Nat × SlotIx) → List (Nat × SlotIx)
  | [] => [p]
  | q :: qs => if p.1 < q.1 then p :: q :: qs else q :: insertByAccept p qs

/-- The occupied slots in the order of their acceptance (R77). -/
def RequestTable.order (t : RequestTable) : List SlotIx :=
  (((List.finRange 8).filterMap (fun i => (t.slot i).map (fun sl => (sl.accept, i)))).foldl
    (fun acc p => insertByAccept p acc) []).map Prod.snd

/-- How many slots are occupied. -/
def RequestTable.occupied (t : RequestTable) : Nat :=
  ((List.finRange 8).filter (fun i => (t.slot i).isSome)).length

/-- The lowest-numbered free slot (R79). -/
def RequestTable.lowestFree (t : RequestTable) : Option SlotIx :=
  (List.finRange 8).find? (fun i => (t.slot i).isNone)

/-- A slot is freed, and every higher acceptance number goes down by 1 (R77). -/
def RequestTable.freeSlot (i : SlotIx) (t : RequestTable) : RequestTable :=
  match t.slot i with
  | none => t
  | some sl =>
    let lowered := t.slots.map (fun o =>
      o.map (fun x => if sl.accept < x.accept then { x with accept := x.accept - 1 } else x))
    { t with slots := lowered.set i none }

/-- How many completion records the queue holds (R105). -/
def RequestTable.completions (t : RequestTable) : Nat := (t.queue.filter QueueRecord.isCompletion).length

/-- The queue takes a completion record (R106, the first two conditions). -/
def RequestTable.admits (t : RequestTable) : Bool :=
  decide (t.completions < Config.completionLimit) && decide (t.queue.length < Config.queueLimit)

/-- A completion record is made ready: it enters the queue and frees its slot, or the slot goes to POSTING (R106). A
slot in POSTING keeps the report it held in SETTLING, which nothing reads there: the model's choice (log 36). -/
def RequestTable.post (i : SlotIx) (c : Completion) (t : RequestTable) : RequestTable :=
  if t.admits && t.posting.isEmpty then
    { t.freeSlot i with queue := t.queue ++ [.completion c] }
  else
    { t.modifySlot i (fun sl => { sl with phase := .posting, completion := some c }) with posting := t.posting ++ [i] }

/-- A request completes with a status and a content (R106, R109). -/
def RequestTable.finish (i : SlotIx) (status : Status) (content : Content) (t : RequestTable) : RequestTable :=
  match t.slot i with
  | none => t
  | some sl => t.post i (sl.record status content)

/-- A completion kept in the slot becomes ready (R66). -/
def RequestTable.finishKept (i : SlotIx) (t : RequestTable) : RequestTable :=
  match t.slot i with
  | none => t
  | some sl =>
    match sl.completion with
    | none => t
    | some c => t.post i c

/-- The earliest-ready slot in POSTING posts its record if the queue admits one (R106). -/
def RequestTable.postNext (t : RequestTable) : RequestTable :=
  match t.posting with
  | [] => t
  | i :: rest =>
    if t.admits then
      match t.slot i with
      | none => { t with posting := rest }
      | some sl =>
        match sl.completion with
        | none => { t with posting := rest }
        | some c => { t.freeSlot i with queue := t.queue ++ [.completion c], posting := rest }
    else t

/-- Slots in POSTING follow one another while the queue admits them (R106). -/
def RequestTable.postWaiting : Nat → RequestTable → RequestTable
  | 0, t => t
  | n + 1, t => RequestTable.postWaiting n t.postNext

/-- The head record leaves the queue (R190). -/
def RequestTable.dropHead (t : RequestTable) : RequestTable := { t with queue := t.queue.tail }

/-! ### Which waiting slots an event names (R92) -/

/-- Slots to be examined, each with the resource the event names, if it names one. -/
abbrev Work := List (SlotIx × Option Resource)

/-- The slots in WAITING for a resource, in acceptance order. -/
def RequestTable.waitingFor (k : Resource) (t : RequestTable) : List SlotIx :=
  t.order.filter (fun i =>
    match t.slot i with
    | none => false
    | some sl => decide (sl.waitsFor = some k))

/-- The Lease Table offers a resource (R28, R92). -/
def RequestTable.offer (k : Resource) (t : RequestTable) : Work := (t.waitingFor k).map (fun i => (i, some k))

/-- The Lease Table offers several resources, in the order given (R28). -/
def RequestTable.offerAll (ks : List Resource) (t : RequestTable) : Work := ks.flatMap (fun k => t.offer k)

/-- Every ACQUIRE slot in WAITING (R92). -/
def RequestTable.everyWaiting (t : RequestTable) : Work :=
  (t.order.filter (fun i =>
    match t.slot i with
    | none => false
    | some sl => sl.waitsFor.isSome)).map (fun i => (i, none))

/-- The slots that wait for the resource this slot stands for and are later than it: those examined when it stops
standing (R92). -/
def RequestTable.behind (i : SlotIx) (t : RequestTable) : Work :=
  match t.slot i with
  | none => []
  | some sl =>
    match sl.standsFor with
    | none => []
    | some k =>
      ((t.waitingFor k).filter (fun j =>
        match t.slot j with
        | none => false
        | some x => decide (sl.accept < x.accept))).map (fun j => (j, some k))

/-- An earlier slot stands for the resource (R86, R87). -/
def RequestTable.earlierStands (i : SlotIx) (k : Resource) (t : RequestTable) : Bool :=
  match t.slot i with
  | none => false
  | some sl =>
    (List.finRange 8).any (fun j =>
      match t.slot j with
      | none => false
      | some x => decide (x.accept < sl.accept) && decide (x.standsFor = some k))

end Sys2Proof.Machine
end

