-- ==== Sys2Proof/Machine/Transmitter.lean ====
section
/-! DEFINITION. The transmitter's choice: the free space of the forwarding queue (R167), the relief counter (R172), the table of R173
and the choice that an idle transmitter makes at the end of a change. -/

namespace Sys2Proof.Machine

/-- The bytes of the frames in the forwarding queue (R167). -/
def RingPort.queuedBytes (r : RingPort) : Nat := (r.forwarding.map Frame.length).sum

/-- The bytes of the forwarded frame in progress that have been sent (R167, R168). START is the first character. -/
def RingPort.sentBytes (r : RingPort) : Nat :=
  match r.transmitter with
  | .silent => 0
  | .idle => 0
  | .gap _ => 0
  | .sendingOwn _ => 0
  | .sendingForwarded sent => sent - 1
  | .endDue => 0

/-- The free space of the forwarding queue (R167). -/
def RingPort.freeSpace (r : RingPort) : Nat := Config.forwardingBytes - (r.queuedBytes - r.sentBytes)

/-- What the transmitter sends next (R173). -/
inductive Choice where
  | own
  | forwarded
  | none
  deriving DecidableEq, Repr

/-- The table of R173: the first row whose condition holds. -/
def State.choice (s : State) : Choice :=
  match s.outbound, s.ring.forwarding with
  | _ :: _, [] => .own
  | f :: _, _ :: _ =>
    if s.ring.relief = Config.reliefLimit ∧ f.frame.length + Config.longestFrame ≤ s.ring.freeSpace then .own
    else .forwarded
  | [], _ :: _ => .forwarded
  | [], [] => .none

/-- The Ring Port once the choice is taken, with its effect on the relief counter (R172, R173). -/
def State.chosen (s : State) : RingPort :=
  match s.choice with
  | .own => { s.ring with transmitter := .sendingOwn 0, relief := 0 }
  | .forwarded =>
    { s.ring with
      transmitter := .sendingForwarded 0
      relief := if s.outbound.isEmpty then s.ring.relief else min Config.reliefLimit (s.ring.relief + 1) }
  | .none => { s.ring with transmitter := .idle }

/-- The choice taken (R173). -/
def State.choose (s : State) : State := { s with ring := s.chosen }

/-- No frame is available to the transmitter (R173). -/
def State.noFrame (s : State) : Bool := s.outbound.isEmpty && s.ring.forwarding.isEmpty

/-- The end of a change that began in `before`: where it has made a frame available, an idle transmitter makes its choice at once, by
the same change (R173, log 33). A change that brings an own frame and a forwarded one is followed by one choice, so that the forwarded
frame goes first (10.1, event 7). -/
def State.startIdle (s before : State) : State :=
  { s with ring := if before.noFrame && decide (s.ring.transmitter = .idle) then s.chosen else s.ring }

end Sys2Proof.Machine
end

