-- ==== Sys2Proof/Machine/Ops.lean ====
section
/-! DEFINITION. The named operations of the station that several commands share: notices, completions, the Outbound Queue,
issuing a claim, the reports of the Claim Engine, the station-level release and the first-stage give-back. Each is one change
of the data sheet and cites its rule. -/

namespace Sys2Proof.Machine

/-- The outcome of a command of this part. -/
abbrev Result := Host.Outcome State Fault Refusal

/-- A command has its effect while the part is not held in reset, and an idle transmitter chooses at its end (R173); in reset nothing
changes (R184, R211). -/
def State.run (s : State) (f : State → State) : Result := .next (if s.inReset then s else (f s).startIdle s)

/-- A write cycle of the host port: a strobe too short is not taken; RD low with WR makes it no other cycle (R212). -/
def State.runWrite (y : Strobe) (s : State) (f : State → State) : Result := if y.wf then s.run f else .next s

/-! ### Configured times (R137, R209), in character times; unset values are read by no block (log 27) -/

/-- tCTO. -/
def State.tCTO (s : State) : Option Nat := s.station.config.map (fun c => c.units.toNat * 10 * Config.charactersPerMicro)

/-- tIAGE. -/
def State.tIAGE (s : State) : Option Nat := s.tCTO.map (fun t => 2 * t)

/-- tRCT. -/
def State.tRCT (s : State) : Option Nat := s.tCTO.map (fun t => 3 * t)

/-- The roll timer period. -/
def State.rollPeriod (s : State) : Option Nat :=
  s.station.config.map (fun c =>
    (c.interval.toNat * 1000 + s.station.address.val * (c.units.toNat * 10)) * Config.charactersPerMicro)

/-- A timer has reached a limit that is set. -/
def reached (limit : Option Nat) (elapsed : Nat) : Bool :=
  match limit with
  | none => false
  | some t => decide (t ≤ elapsed)

/-! ### Notices and completions -/

/-- A notice enters the completion queue, or is lost and NOTICE_LOST is set (R107). -/
def State.raiseNotice (n : Notice) (s : State) : State :=
  if s.table.queue.length < Config.queueLimit then
    { s with table := { s.table with queue := s.table.queue ++ [.notice n] } }
  else { s with host := { s.host with noticeLost := true } }

/-- A STATE notice whose state after is the present one (R157). -/
def State.raiseState (cause : NoticeCause) (before : StationState) (s : State) : State :=
  s.raiseNotice (.state cause before s.station.state)

/-- A request completes (R106). -/
def State.finish (i : SlotIx) (status : Status) (content : Content) (s : State) : State :=
  { s with table := s.table.finish i status content }

/-- The Request Table changed. -/
def State.mapTable (f : RequestTable → RequestTable) (s : State) : State := { s with table := f s.table }

/-- The Lease Table changed. -/
def State.mapLease (f : LeaseTable → LeaseTable) (s : State) : State := { s with lease := f s.lease }

/-! ### The Outbound Queue (R169 to R171) -/

/-- A frame of this station joins the tail, hop count 0 (R169). -/
def State.enqueue (b : Body) (owner : Option SlotIx) (s : State) : State :=
  { s with outbound := s.outbound ++ [{ frame := { origin := s.station.address, hop := 0, body := b }, owner := owner }] }

/-- The relief counter is cleared when the Outbound Queue is empty (R172). -/
def State.clearRelief (s : State) : State :=
  if s.outbound.isEmpty then { s with ring := { s.ring with relief := 0 } } else s

/-- The head has been sent: it leaves the queue, and the END character is due (R158, R170). -/
def State.dequeueSent (s : State) : State :=
  { s with outbound := s.outbound.tail, ring := { s.ring with transmitter := .endDue } }.clearRelief

/-- The transmitter after the frame it is sending is abandoned: IDLE in place of the rest of the frame and its END, then
the gap (R158, R171, log 29). -/
def abandonedGap (length sent : Nat) : Transmitter := .gap (length + 2 - sent + Config.gapCharacters)

/-- The QUEUED ROLL leaves the Outbound Queue without transmission; if it is being sent, the transmitter abandons it
(R120, R171). -/
def State.removeRoll (s : State) : State :=
  let cut : Transmitter :=
    match s.ring.transmitter, s.outbound with
    | .sendingOwn sent, f :: _ => if f.frame.body.isRoll then abandonedGap f.frame.length sent else s.ring.transmitter
    | t, _ => t
  { s with outbound := s.outbound.filter (fun f => !f.frame.body.isRoll),
           ring := { s.ring with transmitter := cut } }.clearRelief

/-! ### The Claim Engine -/

/-- Claim P precedes claim Q (R38). -/
def precedes (patienceP : Nat) (addressP : StationAddr) (patienceQ : Nat) (addressQ : StationAddr) : Bool :=
  decide (patienceQ < patienceP) || (decide (patienceP = patienceQ) && decide (addressP < addressQ))

/-- The outstanding-claim list's entry for a resource (R33). -/
def ClaimEngine.claimOn (k : Resource) (c : ClaimEngine) : Option ClaimEntry :=
  c.claims.find? (fun e => decide (e.resource = k))

/-- Entries that satisfy a test are changed. -/
def ClaimEngine.modifyWhere (p : ClaimEntry → Bool) (f : ClaimEntry → ClaimEntry) (c : ClaimEngine) : ClaimEngine :=
  { c with claims := c.claims.map (fun e => if p e then f e else e) }

/-- The first entry that satisfies a test leaves the list; the entries behind it keep their order (R31). -/
def ClaimEngine.removeWhere (p : ClaimEntry → Bool) (c : ClaimEngine) : ClaimEngine :=
  { c with claims := c.claims.eraseP p }

/-- A claim is issued for a slot (R34, R91): counter raised, frame queued, entry added QUEUED, slot CLAIMING. The circuit timer of a QUEUED
entry, which does not run, is 0: the model's choice (log 38). -/
def State.issueClaim (i : SlotIx) (a : Acquire) (s : State) : State :=
  let q := s.claim.sequence + 1
  let body : Body := .claim
    { resource := a.current, mode := a.mode, sequence := q, patience := BitVec.ofNat 8 a.patience, objection := none }
  let entry : ClaimEntry :=
    { resource := a.current, mode := a.mode, sequence := q, patience := a.patience, yielding := false, cancel := false,
      slot := i, phase := .queued, timer := 0 }
  let s' := s.enqueue body (some i)
  { s' with
    claim := { claims := s.claim.claims ++ [entry], sequence := q }
    table := s.table.modifySlot i (fun sl => { sl with phase := .claiming }) }

/-- The effect of a report on the ACQUIRE fields: a REFUSED report raises the patience of a waiting request up to 15 (R93),
a LOST_CIRCUIT report the lost count (R54). -/
def Acquire.take (r : Report) (a : Acquire) : Acquire :=
  match r with
  | .refused => { a with report := some r, patience := if a.wait then min 15 (a.patience + 1) else a.patience }
  | .lostCircuit => { a with report := some r, lost := min 7 (a.lost + 1) }
  | .granted => { a with report := some r }
  | .withdrawn _ => { a with report := some r }

/-- The Claim Engine reports to the owning slot, which goes to SETTLING (R58, R95). -/
def State.report (i : SlotIx) (r : Report) (s : State) : State :=
  s.mapTable (fun t => t.modifySlot i (fun sl => { sl with phase := .settling, acquire := sl.acquire.map (Acquire.take r) }))

/-- The SETTLE of a claim joins the Outbound Queue, owned by the claim's slot (R51). -/
def State.enqueueSettle (e : ClaimEntry) (o : SettleOutcome) (s : State) : State :=
  s.enqueue (.settle { resource := e.resource, mode := e.mode, sequence := e.sequence, outcome := o }) (some e.slot)

/-! ### Releases (R64, R72) -/

/-- The station-level release of a hold for a slot (R64): the entry goes to RELEASING, this station leaves the holders of its
replica, the RELEASE frame joins the Outbound Queue, the slot goes to RELEASING and keeps the record that becomes
ready at the frame's transmission. -/
def State.releaseHold (e : HoldEntry) (note : List Byte) (i : SlotIx) (kept : Option Completion) (s : State) : State :=
  let frameNote := match e.mode with
    | .exclusive => note
    | .shared => []
  let s' := s.enqueue (.release { resource := e.resource, mode := e.mode, note := frameNote }) (some i)
  { s' with
    lease := s.lease.ownRelease s.station.address e.resource e.mode note
    table := s.table.modifySlot i (fun sl => { sl with phase := .releasing, completion := kept }) }

/-- The first-stage give-back of a failed chained acquire, and its failure completion with stage 2 (R72, R99). The work is
what the change offers: the resource released, and the slots behind this one for the follow-on resource. A held report stays in the
slot, where nothing reads it: the model's choice (log 36). -/
def State.giveBack (i : SlotIx) (status : Status) (s : State) : State × Work :=
  match s.table.slot i with
  | none => (s, [])
  | some sl =>
    match sl.acquire with
    | none => (s, [])
    | some a =>
      let behind := s.table.behind i
      match s.lease.heldEntry? a.first with
      | none => (s.finish i status .none, behind)
      | some e =>
        if e.hasClient sl.client then
          if (e.dropClient sl.client).clients = [] then
            let s' := s.releaseHold e [] i (some (sl.record status .none))
            (s', s'.table.offer a.first ++ behind)
          else
            ((s.mapLease (fun l => l.modifyHold a.first (HoldEntry.dropClient sl.client))).finish i status .none, behind)
        else (s.finish i status .none, behind)

/-- An ACQUIRE fails: in stage 2 it gives back its first stage first (R97, R99). -/
def State.failAcquire (i : SlotIx) (status : Status) (s : State) : State × Work :=
  match s.table.slot i with
  | none => (s, [])
  | some sl =>
    match sl.stage with
    | .first => (s.finish i status .none, s.table.behind i)
    | .second => s.giveBack i status

/-- An ACQUIRE completes OK with its groups (R88, R95). -/
def State.succeedAcquire (i : SlotIx) (s : State) : State × Work :=
  match s.table.slot i with
  | none => (s, [])
  | some sl =>
    match sl.acquire with
    | none => (s, [])
    | some a => (s.finish i .ok (.groups a.groups), s.table.behind i)

/-- Stage 2 begins: stage 2, patience and lost count 0, no held report, in WAITING (R98). -/
def Acquire.beginStage2 (a : Acquire) : Acquire := { a with stage := .second, patience := 0, lost := 0, report := none }

/-- The slot passes to stage 2; the slots behind it for the first resource are to be examined (R92, R98). -/
def State.beginStage2 (i : SlotIx) (s : State) : State × Work :=
  (s.mapTable (fun t => t.modifySlot i
      (fun sl => { sl with phase := .waiting, acquire := sl.acquire.map Acquire.beginStage2 })),
    s.table.behind i)

end Sys2Proof.Machine
end

