-- ==== Sys2Proof/Machine/HostPort.lean ====
section
/-! DEFINITION. The other port accesses: COMPLETION reads (R190, R191), STATUS and INTMASK writes (R194, R195), the probe (R179,
R197) and the ignored writes (R183). -/

namespace Sys2Proof.Machine

/-- The byte a read cycle puts on the data lines (R184). -/
def State.driveData (b : Byte) (s : State) : State := { s with host := { s.host with dataOut := b } }

/-- A read cycle outside reset has its effect; in reset it returns 0 and nothing else changes (R184). A strobe too short changes no
state, and one with WR low as well is a write (R212): to these two addresses an ignored one (R183). -/
def State.runRead (y : Strobe) (s : State) (f : State → State) : Result :=
  .next (if y.wf && !y.both then (if s.inReset then s.driveData 0 else f s) else s)

/-- The end of a read of the head record (R190): the position rises, or the record leaves and slots in POSTING post
(R106), unless a notice raised at the same time is taken first (R108, log 14). -/
def State.advanceRead (noticeFirst : Bool) (r : QueueRecord) (s : State) : State :=
  if s.host.readPos + 1 < r.bytes.length then { s with host := { s.host with readPos := s.host.readPos + 1 } }
  else
    { s with
      host := { s.host with readPos := 0 }
      table := if noticeFirst then s.table.dropHead else RequestTable.postWaiting 8 s.table.dropHead }

/-- A read of COMPLETION (R190, R191). -/
def State.readCompletion (noticeFirst : Bool) (s : State) : State :=
  match s.table.queue with
  | [] => s.driveData 0
  | r :: _ => (s.driveData s.completionByte).advanceRead noticeFirst r

/-- COMPLETION_READ (R190). -/
def execCompletionRead (noticeFirst : Bool) (s : State) (y : Strobe := .shortest) : Result :=
  s.runRead y (fun s => s.readCompletion noticeFirst)

/-- ABANDON (R189): the STATUS write of b with bit 7 set (log 22). -/
def execAbandon (b : Byte) (s : State) (y : Strobe := .shortest) : Result := s.runWrite y (fun s => s.statusWrite (b ||| 0x80))

/-- CLEAR_REFUSED (R194): the STATUS write of b with bit 0 set (log 22). -/
def execClearRefused (b : Byte) (s : State) (y : Strobe := .shortest) : Result := s.runWrite y (fun s => s.statusWrite (b ||| 0x01))

/-- CLEAR_NOTICE_LOST (R194): the STATUS write of b with bit 1 set (log 22). -/
def execClearNoticeLost (b : Byte) (s : State) (y : Strobe := .shortest) : Result := s.runWrite y (fun s => s.statusWrite (b ||| 0x02))

/-- CLEAR_PROBE_DONE (R194): the STATUS write of b with bit 2 set (log 22). -/
def execClearProbeDone (b : Byte) (s : State) (y : Strobe := .shortest) : Result := s.runWrite y (fun s => s.statusWrite (b ||| 0x04))

/-- CLEAR_PROBE_BUSY (R194): the STATUS write of b with bit 3 set (log 22). -/
def execClearProbeBusy (b : Byte) (s : State) (y : Strobe := .shortest) : Result := s.runWrite y (fun s => s.statusWrite (b ||| 0x08))

/-- INTMASK_WRITE (R195). INT# is computed from the mask (log 25). -/
def execIntmaskWrite (b : Byte) (s : State) (y : Strobe := .shortest) : Result := s.runWrite y (fun s => s.intmaskWrite b)

/-- A read of PROBE_TIME_LO (R197): the low byte out, the high byte into the latch. -/
def State.readProbeLo (s : State) : State :=
  { s with host := { s.host with dataOut := loByte s.probe.time, hiLatch := hiByte s.probe.time } }

/-- PROBE_TIME_LO_READ (R197). -/
def execProbeTimeLoRead (s : State) (y : Strobe := .shortest) : Result := s.runRead y State.readProbeLo

/-- The station state lets a probe go out (R179): the states on the ring, with the probe unit IDLE. -/
def State.acceptsProbe (s : State) : Bool := s.station.state.onRing && decide (s.probe.phase = .idle)

/-- A PROBE write (R179). -/
def State.probeWrite (s : State) : State :=
  if s.acceptsProbe then
    let q := s.probe.sequence + 1
    let s' := s.enqueue (.probe q) none
    { s' with probe := { s'.probe with sequence := q, done := false, phase := .queued } }
  else { s with probe := { s.probe with busy := true } }

/-- PROBE (R179). The data byte is ignored (R183). -/
def execProbe (_b : Byte) (s : State) (y : Strobe := .shortest) : Result := s.runWrite y State.probeWrite

/-- IGNORED_WRITE (R183): no state changes. -/
def execIgnoredWrite (_a : IgnoredPort) (_b : Byte) (s : State) (y : Strobe := .shortest) : Result := s.runWrite y id

end Sys2Proof.Machine
end

