-- ==== Sys2Proof/Machine/Arbitration.lean ====
section
/-! DEFINITION. Local arbitration: the examination of an ACQUIRE slot (R86 to R91) and the re-examination of waiting
slots (R92). -/

namespace Sys2Proof.Machine

/-- The outcome of one examination (R87). -/
inductive Verdict where
  | join
  | wait
  | tooMany
  | claim
  | heldBack
  deriving DecidableEq, Repr

/-- The condition of step 1 of R87. -/
def State.canJoin (i : SlotIx) (a : Acquire) (s : State) : Bool :=
  match s.lease.hold? a.current with
  | none => false
  | some e =>
    decide (e.phase = .held) && decide (e.mode = .shared) && decide (a.mode = .shared) &&
      !s.table.earlierStands i a.current

/-- The condition of step 2 of R87. -/
def State.mustWait (i : SlotIx) (a : Acquire) (s : State) : Bool :=
  (match s.lease.hold? a.current with
    | none => false
    | some e => decide (e.phase = .releasing) || conflicting e.mode a.mode) ||
  s.table.earlierStands i a.current ||
  (s.claim.claimOn a.current).isSome ||
  (s.lease.record a.current).showsConflict s.station.address a.mode

/-- The table of R87: the first row whose condition holds. -/
def State.arbitrate (i : SlotIx) (a : Acquire) (s : State) : Verdict :=
  if s.canJoin i a then .join
  else if s.mustWait i a then .wait
  else if Config.holdLimit ≤ s.lease.holds.length + s.claim.claims.length then .tooMany
  else if s.station.state = .active ∧ s.claim.claims.length < Config.claimLimit then .claim
  else .heldBack

/-- A local join (R7, R88): the pair joins the entry, the group is fixed and added to the slot. -/
def State.localJoin (i : SlotIx) (sl : Slot) (a : Acquire) (s : State) : State :=
  let group : Group := { resource := a.current, mode := .shared, note := (s.lease.record a.current).note }
  (s.mapLease (fun l => l.modifyHold a.current (HoldEntry.addClient (sl.client, sl.tag)))).mapTable
    (fun t => t.modifyAcquire i (fun a => { a with groups := a.groups ++ [group] }))

/-- One examination of a slot in WAITING (R87). The flag says that stage 2 has begun, so that the slot is to be examined again
at once (R98). -/
def State.examineOnce (i : SlotIx) (s : State) : State × Work × Bool :=
  match s.table.slot i with
  | none => (s, [], false)
  | some sl =>
    match sl.acquire with
    | none => (s, [], false)
    | some a =>
      match s.arbitrate i a with
      | .join =>
        let s' := s.localJoin i sl a
        if a.stage = .first ∧ a.followOn.isSome then
          let (s'', w) := s'.beginStage2 i
          (s'', w, true)
        else
          let (s'', w) := s'.succeedAcquire i
          (s'', w, false)
      | .wait =>
        if a.wait then (s, [], false)
        else
          let (s', w) := s.failAcquire i .busy
          (s', w, false)
      | .tooMany =>
        let (s', w) := s.failAcquire i .tooMany
        (s', w, false)
      | .claim => (s.issueClaim i a, [], false)
      | .heldBack => (s, [], false)

/-- The examination of a slot: a join that begins stage 2 is followed at once by the examination of stage 2 (R98). -/
def State.examine (i : SlotIx) (s : State) : State × Work :=
  let (s', w, again) := s.examineOnce i
  if again then
    let (s'', w', _) := s'.examineOnce i
    (s'', w ++ w')
  else (s', w)

/-- No slot is examined in LEAVING or HALTED (R92). -/
def StationState.examines : StationState → Bool
  | .unconfigured => true
  | .joining      => true
  | .active       => true
  | .broken       => true
  | .resync       => true
  | .leaving      => false
  | .halted       => false

/-- The slot is still in WAITING for what the event named (R92). -/
def RequestTable.stillNamed (i : SlotIx) (k : Option Resource) (t : RequestTable) : Bool :=
  match t.slot i with
  | none => false
  | some sl =>
    match k with
    | none => sl.waitsFor.isSome
    | some r => decide (sl.waitsFor = some r)

/-- The passes of re-examination, first in first out: what an examination causes is examined after the passes already due
(R92, log 10). The first argument bounds the number of examinations. -/
def State.passes : Nat → Work → State → State
  | 0, _, s => s
  | _ + 1, [], s => s
  | n + 1, (i, k) :: rest, s =>
    if s.station.state.examines && s.table.stillNamed i k then
      let (s', w) := s.examine i
      State.passes n (rest ++ w) s'
    else State.passes n rest s

/-- More examinations than one change can cause: each of the 8 slots leaves WAITING, passes to stage 2 or is freed
at most 4 times in one change, and each time names at most 16 slots (log 10). -/
def passBound : Nat := 512

/-- The slots that a change names are examined (R92). -/
def State.reexamine (w : Work) (s : State) : State := s.passes (w.length + passBound) w

/-- A change that returns its work, followed by the re-examination it causes. -/
def reexamined (p : State × Work) : State := p.1.reexamine p.2

end Sys2Proof.Machine
end

