-- ==== Sys2Proof/Machine/Rolls.lean ====
section
/-! DEFINITION. The Roll Unit's shared operations: origination, the station's entry, retirement, rosters and their
comparison (R112 to R132). -/

namespace Sys2Proof.Machine

/-- The Roll Unit changed. -/
def State.mapRoll (f : RollUnit → RollUnit) (s : State) : State := { s with roll := f s.roll }

/-- This station's roll entry as it stands now (R118). -/
def State.ownEntry (s : State) : RollEntry :=
  { addr := addressByte s.station.address (decide (s.station.state = .joining))
    holds := s.lease.holds.map (fun e => holdByte e.resource e.mode)
    pendings := s.claim.claims.map (fun e => (holdByte e.resource e.mode, e.sequence)) }

/-- A ROSTER of this station waits in the Outbound Queue (R116). -/
def State.rosterWaits (s : State) : Bool := s.outbound.any (fun f => f.frame.body.isRoster)

/-- A roll is made (R112, R116): counter raised, stamp taken, frame queued, outstanding roll QUEUED, timer stopped. R111 gives the age of a
QUEUED roll no meaning; it is 0 and stands still: the model's choice (log 38). -/
def State.makeRoll (s : State) : State :=
  let q := s.roll.sequence + 1
  let stamp := s.station.micros
  (s.enqueue (.roll { sequence := q, stamp := stamp, entries := [s.ownEntry] }) none).mapRoll (fun r =>
    { r with
      outstanding := some { sequence := q, stamp := stamp, phase := .queued, sent := false, age := 0 }
      sequence := q
      timer := none
      held := false })

/-- An origination, held while this station's ROSTER waits (R116). -/
def State.originate (s : State) : State :=
  if s.rosterWaits then s.mapRoll (fun r => { r with held := true, timer := none }) else s.makeRoll

/-- The states in which a roll lost or abandoned is originated anew, JOINING only with the link UP (R115, R130, R131). -/
def State.mayOriginate (s : State) : Bool :=
  match s.station.state with
  | .unconfigured => false
  | .joining      => s.ring.linkUp
  | .active       => true
  | .broken       => false
  | .resync       => true
  | .leaving      => false
  | .halted       => false

/-- The outstanding roll becomes none; one that was sent becomes the retired roll with age 0 (R132). -/
def RollUnit.retire (r : RollUnit) : RollUnit :=
  match r.outstanding with
  | none => r
  | some o =>
    { r with
      outstanding := none
      retired := if o.sent then some { sequence := o.sequence, stamp := o.stamp, age := 0 } else r.retired }

/-- The outstanding roll is in a phase. -/
def RollUnit.inPhase (p : RollPhase) (r : RollUnit) : Bool :=
  match r.outstanding with
  | none => false
  | some o => decide (o.phase = p)

/-- The outstanding roll has been in its phase for a time that reaches a limit. -/
def RollUnit.aged (p : RollPhase) (limit : Option Nat) (r : RollUnit) : Bool :=
  match r.outstanding with
  | none => false
  | some o => decide (o.phase = p) && reached limit o.age

/-- A lost or timed-out roll: retired, and originated anew where the state allows it (R130, R131). -/
def State.loseRoll (s : State) : State :=
  let s' := s.mapRoll RollUnit.retire
  if s'.mayOriginate then s'.originate else s'

/-- This station abandons its own roll (R120). -/
def State.abandonRoll (s : State) : State :=
  match s.roll.outstanding with
  | none => s
  | some o =>
    let s' := s.mapRoll (fun r => { r with outstanding := some { o with phase := .abandoned, age := 0 } })
    if o.phase = .queued then s'.removeRoll else s'

/-! ### Rosters -/

/-- The roster that address bytes give (R113, R124). -/
def rosterOf (bs : List Byte) : List RosterEntry := bs.map (fun b => { address := addressOf b, fresh := freshOf b })

/-- The addresses of a roster. -/
def addresses (r : List RosterEntry) : List StationAddr := r.map RosterEntry.address

/-- The addresses in the old roster that are not in the new one, in increasing order (R127). -/
def departed (self : StationAddr) (old new : List RosterEntry) : List StationAddr :=
  (List.finRange 16).filter (fun a => decide (a ≠ self) && (addresses old).contains a && !(addresses new).contains a)

/-- The addresses fresh in the new roster, other than this station's, in increasing order (R127). -/
def freshSet (self : StationAddr) (new : List RosterEntry) : List StationAddr :=
  (List.finRange 16).filter (fun a => decide (a ≠ self) && new.any (fun e => decide (e.address = a) && e.fresh))

/-- The added addresses of a ROSTER notice (R129). -/
def added (self : StationAddr) (old new : List RosterEntry) : List StationAddr :=
  (List.finRange 16).filter (fun a => decide (a ≠ self) && (addresses new).contains a &&
    (!(addresses old).contains a || (freshSet self new).contains a))

/-- The stations that a new roster makes this station reclaim (R127). -/
def reclaimSet (self : StationAddr) (old new : List RosterEntry) : List StationAddr :=
  departed self old new ++ freshSet self new

/-- A ROSTER notice is raised when the new roster differs from the old (R129). -/
def State.raiseRoster (sequence : Byte) (old new : List RosterEntry) (s : State) : State :=
  let plus := added s.station.address old new
  let minus := departed s.station.address old new
  if plus = [] ∧ minus = [] then s
  else
    let first := match new with
      | [] => s.station.address
      | e :: _ => e.address
    s.raiseNotice (.roster sequence first new.length plus minus)

/-- The address byte of a roster entry in a ROSTER frame of this station (R125). -/
def RosterEntry.byte (e : RosterEntry) : Byte := addressByte e.address e.fresh

/-- A station is named once and no address twice (R126). -/
def rosterAcceptable (self : StationAddr) (new : List RosterEntry) : Bool :=
  (addresses new).contains self && decide (addresses new).Nodup

end Sys2Proof.Machine
end

