-- ==== Sys2Proof/Machine/Station.lean ====
section
/-! DEFINITION. The Station Controller's changes: BYPASS (R176, R177), RESTART (R155), entry to LEAVING and its steps
(R73, R150), the end of LEAVING (R152), the halt for a duplicate address (R153), and roll completion (R124, R143). -/

namespace Sys2Proof.Machine

/-- The station state changed. -/
def State.enter (st : StationState) (s : State) : State := { s with station := { s.station with state := st } }

/-- The assertion of BYPASS (R177): transmitter silent, receiver HUNTING, link DOWN without a report, timers stopped, both
queues emptied, relief 0, probe unit idle. Frames in their processing time are lost with them (log 9). -/
def State.assertBypass (s : State) : State :=
  { s with
    ring := { s.ring with
      linkUp := false, lossTimer := none, settleTimer := none, receiver := .hunting, processing := [],
      forwarding := [], transmitter := .silent, relief := 0, txLine := .silence }
    outbound := []
    probe := { s.probe with phase := .idle } }

/-- The release of BYPASS: the transmitter begins sending IDLE (R177). -/
def State.releaseBypass (s : State) : State := { s with ring := { s.ring with transmitter := .idle } }

/-- RESTART, its parts in order (R155, R156). -/
def State.restart (s : State) : State :=
  let before := s.station.state
  let s1 := s.assertBypass
  let s2 := { s1 with
    table := RequestTable.initial
    claim := { s1.claim with claims := [] }
    lease := LeaseTable.initial
    roll := { s1.roll.retire with timer := none, roster := [], held := false }
    host := { s1.host with readPos := 0 } }
  ((s2.enter .joining).releaseBypass).raiseState .restart before

/-- The Roll Unit at entry to HALTED (R134, R135): a sent roll is retired, the timer stops, a held origination is dropped. -/
def RollUnit.halt (r : RollUnit) : RollUnit := { r.retire with timer := none, held := false }

/-- An occupied slot that is not in POSTING completes ABORTED (R153). -/
def State.abortSlot (s : State) (i : SlotIx) : State :=
  match s.table.slot i with
  | none => s
  | some sl => if sl.phase = .posting then s else s.finish i .aborted .none

/-- Entry to HALTED with cause DUPLICATE_ADDRESS, its parts in order (R153). -/
def State.duplicateHalt (s : State) : State :=
  let before := s.station.state
  let s1 := s.assertBypass
  let s2 := { s1 with
    claim := { s1.claim with claims := [] }
    lease := s1.lease.halt s1.station.address
    roll := s1.roll.halt }
  let s3 := s2.table.order.foldl State.abortSlot s2
  (s3.enter .halted).raiseState .duplicateAddress before

/-! ### LEAVING -/

/-- One release step of the LEAVE slot (R73): the HELD entry nearest the head of the list is released without a note; with none
left the slot waits. -/
def State.leaveStep (i : SlotIx) (s : State) : State :=
  match s.lease.holds.find? (fun e => decide (e.phase = .held)) with
  | none => s.mapTable (fun t => t.modifySlot i (fun sl => { sl with phase := .waiting }))
  | some e => s.releaseHold e [] i none

/-- A waiting ACQUIRE ends at entry to LEAVING (R150, part 2): ABORTED, in stage 2 after the give-back. -/
def State.endWaiting (s : State) (i : SlotIx) : State :=
  match s.table.slot i with
  | none => s
  | some sl => if sl.waitsFor.isSome then (s.failAcquire i .aborted).1 else s

/-- Entry to LEAVING for the slot of the LEAVE request (R150, parts 1 to 3). -/
def State.enterLeaving (i : SlotIx) (s : State) : State :=
  let s1 := (s.enter .leaving).mapRoll (fun r => { r with timer := none, held := false })
  (s1.table.order.foldl State.endWaiting s1).leaveStep i

/-- The three conditions of R152 hold in LEAVING. -/
def State.leavingDone (s : State) : Bool :=
  decide (s.station.state = .leaving) && s.outbound.isEmpty && s.claim.claims.isEmpty && s.lease.holds.isEmpty

/-- The LEAVE slot that waits for the end of LEAVING (R78). -/
def RequestTable.leaveSlot (t : RequestTable) : Option SlotIx :=
  t.order.find? (fun i =>
    match t.slot i with
    | none => false
    | some sl => decide (sl.request = .leave) && decide (sl.phase = .waiting))

/-- The end of LEAVING, its parts in order (R152). -/
def State.endLeaving (s : State) : State :=
  let before := s.station.state
  let s1 := match s.table.leaveSlot with
    | none => s
    | some i => s.finish i .ok .none
  ((s1.assertBypass.mapRoll RollUnit.halt).enter .halted).raiseState .leaveDone before

/-- The test of the end of LEAVING that closes a change (R152, log 15). -/
def State.testLeaving (s : State) : State := if s.leavingDone then s.endLeaving else s

/-! ### Roll completion -/

/-- The report of a completed roll to the Station Controller (R143; the order of examination and notice: log 11). A roll that completes
in BROKEN, its END before the DOWN (R161), leaves the station BROKEN with no ROLL_DONE: the model's choice (log 37). -/
def State.rollDone (s : State) : State :=
  match s.station.state with
  | .joining =>
    let s' := s.enter .active
    (s'.reexamine s'.table.everyWaiting).raiseState .rollDone .joining
  | .resync =>
    let s' := s.enter .active
    (s'.reexamine s'.table.everyWaiting).raiseState .rollDone .resync
  | .unconfigured => s
  | .active       => s
  | .broken       => s
  | .leaving      => s
  | .halted       => s

/-- The roll timer starts from 0 in ACTIVE (R114, R124). -/
def State.startRollTimer (s : State) : State :=
  if s.station.state = .active then s.mapRoll (fun r => { r with timer := some 0 }) else s

/-- The completion of this station's own roll, its parts in order (R124). -/
def State.completeRoll (b : RollBody) (s : State) : State :=
  let self := s.station.address
  let old := s.roll.roster
  let new := rosterOf (b.entries.map RollEntry.addr)
  let s1 := s.mapRoll (fun r => { r with outstanding := none })
  let s3 := s1.mapLease (fun l => (l.rebuild self b.entries).reclaim (reclaimSet self old new))
  let s4 := s3.reexamine (s3.table.offerAll (List.finRange 64))
  let s5 := s4.enqueue (.roster { sequence := b.sequence, stations := new.map RosterEntry.byte }) none
  let s6 := s5.mapRoll (fun r => { r with roster := new })
  ((s6.raiseRoster b.sequence old new).rollDone).startRollTimer

end Sys2Proof.Machine
end

