-- ==== Sys2Proof/Machine/Accept.lean ====
section
/-! DEFINITION. What becomes of a committed request record: the commit (R186), acceptance into a slot (R79), the station
state (R80), and the handling of each kind (R70, R83 to R85, R100, R103, R104, R141, R149). -/

namespace Sys2Proof.Machine

/-- What the station state makes of an accepted request (R80). -/
inductive Disposition where
  | proceeds
  | notReady
  | aborted
  deriving DecidableEq, Repr

/-- The table of R80, a column for each station state. -/
def disposition (k : RequestKind) (st : StationState) : Disposition :=
  match k, st with
  | .query, _ => .proceeds
  | .stats, _ => .proceeds
  | .restart, _ => .notReady
  | .configure, .unconfigured => .proceeds
  | .configure, _ => .notReady
  | _, .unconfigured => .notReady
  | _, .halted => .notReady
  | .release, .leaving => .aborted
  | .cancel, .leaving => .proceeds
  | .clearFault, .leaving => .proceeds
  | _, .leaving => .notReady
  | _, _ => .proceeds

/-- A client's fault flag set or cleared (R82, R83). -/
def RequestTable.setFault (c : Client) (b : Bool) (t : RequestTable) : RequestTable :=
  { t with faults := t.faults.set c b }

/-- A client's fault flag (R82). -/
def RequestTable.fault (c : Client) (t : RequestTable) : Bool := t.faults[c]

/-! ### ACQUIRE -/

/-- A request is an ACQUIRE that names a resource as its first or its follow-on (R84). -/
def Request.namesAcquire (k : Resource) : Request → Bool
  | .acquire r _ _ f => decide (r.toNat = k.val) || (match f with | none => false | some b => decide (b.toNat = k.val))
  | .configure _ _ _ => false
  | .release _ _ => false
  | .cancel _ => false
  | .query _ => false
  | .stats => false
  | .clearFault => false
  | .leave => false
  | .restart => false

/-- The fields of an ACQUIRE when all are in range (R84, check 1), started as R85 lays down. -/
def startAcquire (resource mode wait : Byte) (followOn : Option Byte) : Option Acquire :=
  match requestResource resource, requestMode mode, requestWait wait with
  | some k, some m, some w =>
    let a : Acquire :=
      { first := k, mode := m, wait := w, followOn := none, stage := .first, patience := 0, lost := 0,
        report := none, groups := [] }
    match followOn with
    | none => some a
    | some b =>
      match requestResource b with
      | none => none
      | some f => some { a with followOn := some f }
  | _, _, _ => none

/-- The follow-on resource is equal to or lower than the first (R84, check 2). -/
def Acquire.badOrder (a : Acquire) : Bool :=
  match a.followOn with
  | none => false
  | some f => decide (f ≤ a.first)

/-- The condition of check 4 of R84, for the slot i of client c with tag t. -/
def State.duplicates (i : SlotIx) (c : Client) (tag : Byte) (a : Acquire) (s : State) : Bool :=
  let named := a.first :: a.followOn.toList
  named.any (fun k => s.lease.clientHolds c k) ||
    (List.finRange 8).any (fun j =>
      match s.table.slot j with
      | none => false
      | some x =>
        decide (j ≠ i) && decide (x.client = c) &&
          (decide (x.tag = tag) || named.any (fun k => x.request.namesAcquire k)))

/-- An ACQUIRE that proceeds: the checks of R84 in order, then the start of R85 and the first examination. -/
def State.handleAcquire (i : SlotIx) (c : Client) (tag resource mode wait : Byte) (followOn : Option Byte)
    (s : State) : State :=
  match startAcquire resource mode wait followOn with
  | none => s.finish i .badField .none
  | some a =>
    if a.badOrder then s.finish i .badOrder .none
    else if s.table.fault c then s.finish i .clientFaulted .none
    else if s.duplicates i c tag a then (s.mapTable (RequestTable.setFault c true)).finish i .duplicate .none
    else reexamined ((s.mapTable (fun t => t.modifySlot i (fun sl => { sl with acquire := some a }))).examine i)

/-! ### RELEASE -/

/-- The completion of a RELEASE whose note is dropped where one was given (R70). -/
def noteStatus (note : List Byte) : Status := if note = [] then .ok else .noteDropped

/-- The entry a RELEASE of a client finds: in HELD phase with the client among its clients (R70). -/
def State.releasable (c : Client) (resource : Byte) (s : State) : Option HoldEntry :=
  match requestResource resource with
  | none => none
  | some k =>
    match s.lease.heldEntry? k with
    | none => none
    | some e => if e.hasClient c then some e else none

/-- A RELEASE that proceeds, by the first row of R70 whose condition holds. -/
def State.handleRelease (i : SlotIx) (c : Client) (resource : Byte) (note : List Byte) (s : State) : State :=
  if s.table.fault c then s.finish i .clientFaulted .none
  else match s.releasable c resource with
    | none => (s.mapTable (RequestTable.setFault c true)).finish i .notHeld .none
    | some e =>
      if (e.dropClient c).clients = [] then
        match s.table.slot i with
        | none => s
        | some sl =>
          let status := match e.mode with
            | .exclusive => Status.ok
            | .shared => noteStatus note
          let s' := s.releaseHold e note i (some (sl.record status .none))
          s'.reexamine (s'.table.offer e.resource)
      else
        (s.mapLease (fun l => l.modifyHold e.resource (HoldEntry.dropClient c))).finish i (noteStatus note) .none

/-! ### CANCEL -/

/-- The slot is an ACQUIRE of a client with a tag (R100). -/
def Slot.isTarget (c : Client) (tag : Byte) (sl : Slot) : Bool :=
  decide (sl.request.kind = .acquire) && decide (sl.client = c) && decide (sl.tag = tag)

/-- The target of a CANCEL: the earliest accepted where more than one matches (R100, log 13). -/
def RequestTable.cancelTarget (c : Client) (tag : Byte) (t : RequestTable) : Option SlotIx :=
  t.order.find? (fun i =>
    match t.slot i with
    | none => false
    | some sl => sl.isTarget c tag)

/-- The cancel flag of the claim a slot owns is set (R56). -/
def ClaimEngine.cancelOf (i : SlotIx) (c : ClaimEngine) : ClaimEngine :=
  c.modifyWhere (fun e => decide (e.slot = i)) (fun e => { e with cancel := true })

/-- A CANCEL that proceeds, by the table of R100; the target's completion is made ready first. -/
def State.handleCancel (i : SlotIx) (c : Client) (target : Byte) (s : State) : State :=
  match s.table.cancelTarget c target with
  | none => s.finish i .notFound .none
  | some j =>
    match s.table.slot j with
    | none => s.finish i .notFound .none
    | some x =>
      match x.phase with
      | .waiting =>
        if x.acquire.isSome then
          let (s', w) := s.failAcquire j .cancelled
          (s'.finish i .ok .none).reexamine w
        else s.finish i .tooLate .none
      | .claiming => ({ s with claim := s.claim.cancelOf j }).finish i .ok .none
      | .settling => s.finish i .tooLate .none
      | .releasing => s.finish i .tooLate .none
      | .posting => s.finish i .tooLate .none

/-! ### The other kinds -/

/-- CONFIGURE's fields are in range (R141). -/
def Configuration.inRange (c : Configuration) : Bool :=
  decide (1 ≤ c.interval.toNat) && decide (1 ≤ c.units.toNat) && decide (c.units.toNat ≤ 1000) &&
    decide (1 ≤ c.retry.toNat) && decide (c.retry.toNat ≤ 7)

/-- A CONFIGURE that proceeds (R141): the completion is made ready before the notice is raised. -/
def State.handleConfigure (i : SlotIx) (c : Configuration) (s : State) : State :=
  if c.inRange then
    let before := s.station.state
    let s1 := { s with station := { s.station with config := some c } }
    (((s1.finish i .ok .none).enter .joining).releaseBypass).raiseState .configured before
  else s.finish i .badField .none

/-- A QUERY (R103). -/
def State.handleQuery (i : SlotIx) (resource : Byte) (s : State) : State :=
  match requestResource resource with
  | none => s.finish i .badField .none
  | some k => s.finish i .ok (.snapshot (s.lease.snapshot k))

/-- A STATS (R104): the three counters are handed over and set to 0 by the same change. -/
def State.handleStats (i : SlotIx) (s : State) : State :=
  let content := Content.counters s.ring.formatCount s.ring.hopCount s.ring.overflowCount
  ({ s with ring := { s.ring with formatCount := 0, hopCount := 0, overflowCount := 0 } }).finish i .ok content

/-- A LEAVE that proceeds (R149, R150), closed by the test of the end of LEAVING (R150, part 5). -/
def State.handleLeave (i : SlotIx) (s : State) : State := (s.enterLeaving i).testLeaving

/-! ### Acceptance and commit -/

/-- A request that proceeds, by its kind (R80). -/
def State.handle (i : SlotIx) (c : Client) (tag : Byte) (r : Request) (s : State) : State :=
  match r with
  | .configure interval units retry => s.handleConfigure i { interval := interval, units := units, retry := retry }
  | .acquire resource mode wait followOn => s.handleAcquire i c tag resource mode wait followOn
  | .release resource note => s.handleRelease i c resource note
  | .cancel target => s.handleCancel i c target
  | .query resource => s.handleQuery i resource
  | .stats => s.handleStats i
  | .clearFault => (s.mapTable (RequestTable.setFault c false)).finish i .ok .none
  | .leave => s.handleLeave i
  | .restart => s.finish i .notReady .none

/-- A request copied into a free slot with the next acceptance number (R77, R79). -/
def State.occupy (i : SlotIx) (c : Client) (tag : Byte) (r : Request) (s : State) : State :=
  s.mapTable (fun t => t.setSlot i (some
    { client := c, tag := tag, request := r, phase := .waiting, accept := t.occupied + 1, acquire := none,
      completion := none }))

/-- A well-formed record is offered to the Request Table (R79, R188), and judged by the station state (R80). -/
def State.offerRequest (c : Client) (tag : Byte) (r : Request) (s : State) : State :=
  match s.table.lowestFree with
  | none => s.setRefused
  | some i =>
    let s' := s.occupy i c tag r
    match disposition r.kind s.station.state with
    | .proceeds => s'.handle i c tag r
    | .notReady => s'.finish i .notReady .none
    | .aborted => s'.finish i .aborted .none

/-- A committed record, judged in the order of R186; the buffer becomes EMPTY by the same change. -/
def State.commit (k : RequestKind) (r : HostRecord) (s : State) : State :=
  let s' := { s with host := { s.host with assembly := .empty } }
  if !formOk k r then s'.setRefused
  else if k = .restart ∧ s.station.state ≠ .unconfigured then s'.restart
  else s'.offerRequest r.clientNo r.tag (requestOf k r)

/-- The record in the assembly buffer commits: its stored bytes and its declared length (R186, R187). -/
def State.commitBytes (stored : List Byte) (declared : Byte) (s : State) : State :=
  match requestKindOf (stored.getD 0 0) with
  | none => ({ s with host := { s.host with assembly := .empty } }).setRefused
  | some k =>
    s.commit k { declared := declared, client := stored.getD 2 0, tag := stored.getD 3 0, body := stored.drop 4 }

/-- A write to REQUEST, by the table of R185. -/
def State.requestByte (b : Byte) (s : State) : State :=
  match s.host.assembly with
  | .empty => { s with host := { s.host with assembly := .kind b } }
  | .kind k =>
    if b.toNat ≤ 2 then s.commitBytes [k, b] b
    else { s with host := { s.host with assembly := .counting [k, b] b 2 } }
  | .counting stored declared count =>
    let stored' := if count < Config.assemblyBytes then stored ++ [b] else stored
    if count + 1 = declared.toNat then s.commitBytes stored' declared
    else { s with host := { s.host with assembly := .counting stored' declared (count + 1) } }

end Sys2Proof.Machine
end

