-- ==== Sys2Proof/Machine/HostRequests.lean ====
section
/-! DEFINITION. Writes to REQUEST: a byte of a record (R185), and the nine requests as the port commits them (R186, log 23). -/

namespace Sys2Proof.Machine

/-- REQUEST_ASSEMBLY_BYTE (R185). -/
def execRequestAssemblyByte (b : Byte) (s : State) (y : Strobe := .shortest) : Result := s.runWrite y (fun s => s.requestByte b)

/-- CONFIGURE (R141). -/
def execConfigure (r : HostRecord) (s : State) : Result := s.run (fun s => s.commit .configure r)

/-- ACQUIRE (R84). -/
def execAcquire (r : HostRecord) (s : State) : Result := s.run (fun s => s.commit .acquire r)

/-- RELEASE (R70). -/
def execRelease (r : HostRecord) (s : State) : Result := s.run (fun s => s.commit .release r)

/-- CANCEL (R100). -/
def execCancel (r : HostRecord) (s : State) : Result := s.run (fun s => s.commit .cancel r)

/-- QUERY (R103). -/
def execQuery (r : HostRecord) (s : State) : Result := s.run (fun s => s.commit .query r)

/-- STATS (R104). -/
def execStats (r : HostRecord) (s : State) : Result := s.run (fun s => s.commit .stats r)

/-- CLEAR_FAULT (R83). -/
def execClearFault (r : HostRecord) (s : State) : Result := s.run (fun s => s.commit .clearFault r)

/-- LEAVE (R149). -/
def execLeave (r : HostRecord) (s : State) : Result := s.run (fun s => s.commit .leave r)

/-- RESTART (R155). -/
def execRestart (r : HostRecord) (s : State) : Result := s.run (fun s => s.commit .restart r)

end Sys2Proof.Machine
end

