-- ==== Sys2Proof/Machine/Power.lean ====
section
/-! DEFINITION. The supply and the RESET pin: POWER_FAIL, RESET_ASSERTED and RESET_RELEASED (R140, R211). -/

namespace Sys2Proof.Machine

/-- Every block held at its initial values, the latched address kept until the release samples the straps again (R139, R140, log 18).
The supply, the pins, the receive line and the command queue are outside the blocks. -/
def State.holdReset (supply reset : Bool) (elapsed : Nat) (s : State) : State :=
  { State.initial s.station.address with
    supplyLow := supply, resetLow := reset, porTimer := elapsed, straps := s.straps, rxLine := s.rxLine, pending := s.pending }

/-- The release of reset: every block at its initial values, the address latched from the straps (R139, R140). -/
def State.releaseReset (straps : StationAddr) (s : State) : State :=
  { State.initial straps with rxLine := s.rxLine, pending := s.pending }

/-- The part samples ADR3 to ADR0 and latches the address (R139, R210). -/
def State.sampleStraps (straps : StationAddr) (s : State) : State :=
  { s with straps := straps, station := { s.station with address := straps } }

/-- Power-on reset ends: tPOR has passed since the supply rose. With RESET held low the straps are sampled and the part stays in reset
(R139, R211). -/
def State.powerOnEnds (straps : StationAddr) (s : State) : State :=
  if s.supplyLow && decide (Config.porCharacters ≤ s.porTimer) then
    if s.resetLow then { s.sampleStraps straps with supplyLow := false, porTimer := 0 } else s.releaseReset straps
  else s

/-- The RESET pin is released after an assertion that was taken: the straps are sampled, also where power-on reset still holds the part
(R139, R210); the end of a pulse that was filtered out leaves every state unchanged (R211). -/
def State.pinReleased (straps : StationAddr) (s : State) : State :=
  if s.resetLow then
    if s.supplyLow then { s.sampleStraps straps with resetLow := false } else s.releaseReset straps
  else s

/-- POWER_FAIL (R211): power-on reset begins, and tPOR is counted anew (log 30). -/
def execPowerFail (s : State) : Result := .next (s.holdReset true s.resetLow 0)

/-- RESET_ASSERTED (R211): a low pulse of tRST or more is taken, a shorter one does nothing (log 30). -/
def execResetAsserted (lowNs : Nat) (s : State) : Result :=
  .next (if Config.resetNs ≤ lowNs then s.holdReset s.supplyLow true s.porTimer else s)

/-- RESET_RELEASED (R139, R140, R211): one cause of reset ends, the straps are sampled, and the part leaves reset when none is left. -/
def execResetReleased (cause : ReleaseCause) (straps : StationAddr) (s : State) : Result :=
  match cause with
  | .powerOnEnds => .next (s.powerOnEnds straps)
  | .pinReleased => .next (s.pinReleased straps)

end Sys2Proof.Machine
end

