-- ==== Sys2Proof/Machine/Forwarding.lean ====
section
/-! DEFINITION. The forwarding queue (R166 to R168). -/

namespace Sys2Proof.Machine

/-- A frame in its forwarding form is offered to the queue: it joins the tail, or is discarded and counted (R167). -/
def State.offerForward (f : Frame) (s : State) : State :=
  if f.length ≤ s.ring.freeSpace then
    { s with ring := { s.ring with forwarding := s.ring.forwarding ++ [f] } }
  else s.countOverflow

/-- A frame leaves the receipt with its changed body, its hop count raised by 1 and a new CRC (R166). -/
def State.forward (f : Frame) (b : Body) (s : State) : State :=
  s.offerForward { f with hop := f.hop + 1, body := b }

/-- The forwarded frame in progress has been sent: it leaves the queue, and END is due (R158, R168). -/
def State.dropForwarded (s : State) : State :=
  { s with ring := { s.ring with forwarding := s.ring.forwarding.tail, transmitter := .endDue } }

end Sys2Proof.Machine
end

