-- ==== Sys2Proof/Machine/Receipt.lean ====
section
/-! DEFINITION. The receipt of a frame as one change (R163): format and originator checks (R162, R164), the owning block's
action (R165), the offer to the forwarding queue (R166, R167). -/

namespace Sys2Proof.Machine

/-! ### Arrival -/

/-- The frame at the head of those in processing time has these bytes (R161, R163). -/
def State.inProcessing (bytes : List Byte) (s : State) : Bool :=
  match s.ring.processing with
  | [] => false
  | a :: _ => decide (a.bytes = bytes)

/-- A frame can be taken: the station is on the ring and its receive link is UP, or the frame had completed before the link
went DOWN (R161, R165, log 8). -/
def State.canReceive (bytes : List Byte) (s : State) : Bool :=
  s.station.state.onRing && (s.ring.linkUp || s.inProcessing bytes)

/-- The frame leaves its processing time; one that comes as a command alone has had its END by then, so the receiver is
HUNTING (R159, log 24). A receipt that comes as a command is taken as it comes, before its tPROC has ended and ahead of other frames in
processing time: the model's choice (log 24). -/
def State.arrive (bytes : List Byte) (s : State) : State :=
  if s.inProcessing bytes then { s with ring := { s.ring with processing := s.ring.processing.tail } }
  else { s with ring := { s.ring with receiver := .hunting } }

/-! ### Frames of other stations -/

/-- The station takes other stations' frames into its replica and objects (R3, R39): every state that receives
but JOINING. -/
def State.listens (s : State) : Bool := !decide (s.station.state = .joining)

/-- What the Claim Engine does to a passing claim (R40, R41). -/
inductive Stand where
  | object
  | yield
  | pass
  deriving DecidableEq, Repr

/-- The tables of R40 and R41 for a claim of station o. -/
def State.stand (o : StationAddr) (b : ClaimBody) (s : State) : Stand :=
  if s.lease.holdConflicts b.resource b.mode then .object
  else match s.claim.claimOn b.resource with
    | none => .pass
    | some e =>
      if conflicting e.mode b.mode then
        if precedes e.patience s.station.address (patienceOf b.patience) o then .object else .yield
      else .pass

/-- The yielding flag of this station's claim on a resource is set (R41, R43). -/
def ClaimEngine.yieldOn (k : Resource) (c : ClaimEngine) : ClaimEngine :=
  c.modifyWhere (fun e => decide (e.resource = k)) (fun e => { e with yielding := true })

/-- The Claim Engine at another station's CLAIM (R40 to R42). -/
def State.engineTakesClaim (o : StationAddr) (b : ClaimBody) (s : State) : State × ClaimBody :=
  match s.stand o b with
  | .object => (s, b.object s.station.address)
  | .yield => ({ s with claim := s.claim.yieldOn b.resource }, b)
  | .pass => (s, b)

/-- The Lease Table at another station's CLAIM (R10): the intent recorded; an offer when the claim came from a holder. -/
def State.leaseTakesClaim (o : StationAddr) (b : ClaimBody) (s : State) : State × Work :=
  let held := (s.lease.record b.resource).holders.contains o
  let s' := s.mapLease (fun l => l.modify b.resource
    (ResourceRecord.recordIntent { originator := o, mode := b.mode, sequence := b.sequence, age := 0 }))
  (s', if held then s'.table.offer b.resource else [])

/-- Another station's CLAIM at its owning blocks (R10, R39 to R42). -/
def State.takeClaim (o : StationAddr) (b : ClaimBody) (s : State) : State × ClaimBody :=
  if s.listens then
    let (s1, b') := s.engineTakesClaim o b
    (reexamined (s1.leaseTakesClaim o b), b')
  else (s, b)

/-- The record of a SETTLE's resource after it (R11, R12). -/
def ResourceRecord.settle (o : StationAddr) (b : SettleBody) (r : ResourceRecord) : ResourceRecord :=
  match b.outcome with
  | .granted => r.grant o b.mode
  | .refused | .withdrawn =>
    match r.intentOf o with
    | none => r
    | some i => if i.sequence = b.sequence then r.dropIntent o else r

/-- The change of a SETTLE frees the record (R11, R12): a grant that drops a holder, or a removed intent. A SHARED grant to the
EXCLUSIVE holder itself leaves it a holder and frees nothing: the model's choice (log 35). -/
def ResourceRecord.settleFrees (o : StationAddr) (b : SettleBody) (r : ResourceRecord) : Bool :=
  match b.outcome with
  | .granted => r.holders.any (fun y => !(r.grant o b.mode).holders.contains y)
  | .refused | .withdrawn =>
    match r.intentOf o with
    | none => false
    | some i => decide (i.sequence = b.sequence)

/-- Another station's SETTLE at the Lease Table (R11, R12). -/
def State.takeSettle (o : StationAddr) (b : SettleBody) (s : State) : State :=
  if s.listens then
    let frees := (s.lease.record b.resource).settleFrees o b
    let s' := s.mapLease (fun l => l.modify b.resource (ResourceRecord.settle o b))
    s'.reexamine (if frees then s'.table.offer b.resource else [])
  else s

/-- Another station's RELEASE at the Lease Table (R13); in JOINING the note alone (R3). -/
def State.takeRelease (o : StationAddr) (b : ReleaseBody) (s : State) : State :=
  if s.listens then
    let held := (s.lease.record b.resource).holders.contains o
    let s' := s.mapLease (fun l => l.modify b.resource (ResourceRecord.release o b.mode b.note))
    s'.reexamine (if held then s'.table.offer b.resource else [])
  else s.mapLease (fun l => l.modify b.resource (ResourceRecord.releaseNote b.mode b.note))

/-- The entry of this station appended to a passing ROLL (R118). -/
def State.appendEntry (b : RollBody) (s : State) : RollBody := { b with entries := b.entries ++ [s.ownEntry] }

/-- Another station's ROLL at the Roll Unit, by the first row of R119; none where the frame is not forwarded. -/
def State.takeRoll (o : StationAddr) (b : RollBody) (s : State) : State × Option RollBody :=
  if b.entries.any (fun e => decide (addressOf e.addr = s.station.address)) then (s.duplicateHalt, none)
  else if Config.rollEntries ≤ b.entries.length then (s.countHop, none)
  else if s.roll.inPhase .queued || s.roll.inPhase .circulating then
    if o < s.station.address then
      let s' := s.abandonRoll
      (s', some (s'.appendEntry b))
    else (s, none)
  else (s, some (s.appendEntry b))

/-- What another station's ROSTER does to an ABANDONED own roll (R128). In BROKEN nothing further, and in JOINING with the link DOWN the
origination waits for UP (R148): the model's choice (log 37). -/
def State.rosterClears (s : State) : State :=
  if s.roll.inPhase .abandoned then
    let s' := s.mapRoll RollUnit.retire
    if s'.station.state = .active then s'.startRollTimer
    else if s'.mayOriginate then s'.originate
    else s'
  else s

/-- The roll timer starts again at an accepted ROSTER in ACTIVE, with no roll outstanding and none held (R114). -/
def State.restartTimer (s : State) : State :=
  if s.roll.outstanding = none ∧ s.roll.held = false then s.startRollTimer else s

/-- An accepted ROSTER (R126): reclaim, roster replaced, notice, ABANDONED roll, timer. -/
def State.acceptRoster (b : RosterBody) (s : State) : State :=
  let self := s.station.address
  let old := s.roll.roster
  let new := rosterOf b.stations
  let zs := reclaimSet self old new
  let offered := s.lease.reclaimed zs
  let s1 := s.mapLease (LeaseTable.reclaim zs)
  let s2 := s1.reexamine (s1.table.offerAll offered)
  let s3 := s2.mapRoll (fun r => { r with roster := new })
  ((s3.raiseRoster b.sequence old new).rosterClears).restartTimer

/-- Another station's ROSTER at the Roll Unit (R126), in BROKEN as in LEAVING: the model's choice (log 37). -/
def State.takeRoster (b : RosterBody) (s : State) : State :=
  if s.listens && rosterAcceptable s.station.address (rosterOf b.stations) then s.acceptRoster b
  else s.rosterClears

/-- A frame of another station, with a hop count below 15: its owning blocks, then the forwarding queue (R165). -/
def State.takeForeign (f : Frame) (s : State) : State :=
  match f.body with
  | .claim b =>
    let (s', b') := s.takeClaim f.origin b
    s'.forward f (.claim b')
  | .settle b => (s.takeSettle f.origin b).forward f f.body
  | .release b => (s.takeRelease f.origin b).forward f f.body
  | .roll b =>
    match s.takeRoll f.origin b with
    | (s', none) => s'
    | (s', some b') => s'.forward f (.roll b')
  | .roster b => (s.takeRoster b).forward f f.body
  | .probe _ => s.forward f f.body

/-! ### Own frames home -/

/-- The entry a returned claim matches: CIRCULATING, with its sequence, resource and mode (R45). -/
def ClaimEntry.matchesReturn (b : ClaimBody) (e : ClaimEntry) : Bool :=
  decide (e.phase = .circulating) && decide (e.sequence = b.sequence) && decide (e.resource = b.resource) &&
    decide (e.mode = b.mode)

/-- The outcomes of R47. -/
inductive Judgement where
  | withdrawn (cause : WithdrawCause)
  | granted
  | refused
  deriving DecidableEq, Repr

/-- The table of R47: the first row whose condition holds. -/
def State.judge (e : ClaimEntry) (objection : Option StationAddr) (s : State) : Judgement :=
  if e.cancel then .withdrawn .cancelled
  else if s.station.state = .leaving then .withdrawn .leaving
  else if objection = none ∧ e.yielding = false then .granted
  else .refused

/-- The GRANTED judgement from its step 2 on (R48): the hold, the replica, the note, the SETTLE and the report. -/
def State.grantClaim (e : ClaimEntry) (s : State) : State :=
  match s.table.slot e.slot with
  | none => s
  | some sl =>
    let s1 := s.mapLease (LeaseTable.ownGrant s.station.address e.resource e.mode (sl.client, sl.tag))
    let group : Group := { resource := e.resource, mode := e.mode, note := (s1.lease.record e.resource).note }
    ((s1.enqueueSettle e .granted).report e.slot .granted).mapTable
      (fun t => t.modifyAcquire e.slot (fun a => { a with groups := a.groups ++ [group] }))

/-- The judgement carried out, after the entry has left the list (R48 to R50). -/
def State.settleClaim (e : ClaimEntry) (j : Judgement) (s : State) : State :=
  match j with
  | .withdrawn cause => (s.enqueueSettle e .withdrawn).report e.slot (.withdrawn cause)
  | .granted => s.grantClaim e
  | .refused => (s.enqueueSettle e .refused).report e.slot .refused

/-- An own CLAIM comes home (R45 to R50); an entry that leaves the list lets every waiting slot be examined (R92). -/
def State.claimHome (b : ClaimBody) (s : State) : State :=
  match s.claim.claims.find? (ClaimEntry.matchesReturn b) with
  | none => s
  | some e =>
    let s1 := { s with claim := s.claim.removeWhere (ClaimEntry.matchesReturn b) }
    let s2 := s1.settleClaim e (s.judge e b.objection)
    s2.reexamine s2.table.everyWaiting

/-- A roll's identity (R112). -/
def OutstandingRoll.isRoll (b : RollBody) (o : OutstandingRoll) : Bool :=
  decide (o.sequence = b.sequence) && decide (o.stamp = b.stamp)

/-- The returned roll matches the outstanding roll in a phase (R122). -/
def RollUnit.matchesIn (p : RollPhase) (b : RollBody) (r : RollUnit) : Bool :=
  match r.outstanding with
  | none => false
  | some o => decide (o.phase = p) && o.isRoll b

/-- The returned roll matches the retired roll (R122). -/
def RollUnit.matchesRetired (b : RollBody) (r : RollUnit) : Bool :=
  match r.retired with
  | none => false
  | some o => decide (o.sequence = b.sequence) && decide (o.stamp = b.stamp)

/-- An ABANDONED own roll comes home and is stripped (R122). In BROKEN nothing further, and in JOINING with the link DOWN the origination
waits for UP (R148): the model's choice (log 37). -/
def State.abandonedHome (s : State) : State :=
  let s' := s.mapRoll (fun r => { r with outstanding := none })
  if s'.station.state = .active then s'.startRollTimer
  else if s'.mayOriginate then s'.originate
  else s'

/-- An own ROLL comes home, by the first row of R122. -/
def State.rollHome (b : RollBody) (s : State) : State :=
  if s.roll.matchesIn .circulating b then s.completeRoll b
  else if s.roll.matchesIn .abandoned b then s.abandonedHome
  else if s.roll.matchesRetired b then s.mapRoll (fun r => { r with retired := none })
  else s.duplicateHalt

/-- An own PROBE comes home (R180). -/
def State.probeHome (sequence : Byte) (s : State) : State :=
  if s.probe.phase = .out ∧ sequence = s.probe.sequence then
    { s with probe := { s.probe with time := s.station.micros - s.probe.sendTime, done := true, phase := .idle } }
  else s

/-- An own frame is stripped and handed to its maker by kind (R164). -/
def State.takeOwn (f : Frame) (s : State) : State :=
  match f.body with
  | .claim b   => s.claimHome b
  | .settle _  => s
  | .release _ => s
  | .roll b    => s.rollHome b
  | .roster _  => s
  | .probe q   => s.probeHome q

/-! ### The receipt -/

/-- A frame judged by originator and hop count, in this order (R164). -/
def State.judgeFrame (f : Frame) (s : State) : State :=
  if f.origin = s.station.address then s.takeOwn f
  else if Config.hopLimit ≤ f.hop.toNat then s.countHop
  else s.takeForeign f

/-- The receipt of a frame, with the test of the end of LEAVING that closes it (R152, R163). A frame that cannot be received
changes nothing (log 6). -/
def State.receive (f : Frame) (s : State) : State :=
  if s.canReceive f.bytes then
    let s' := s.arrive f.bytes
    if f.wf then (s'.judgeFrame f).testLeaving else s'.countFormat
  else s

/-- A frame completed by END that fails the format check (R162). -/
def State.receiveBad (bytes : List Byte) (s : State) : State :=
  if s.canReceive bytes ∧ parseFrame bytes = none then (s.arrive bytes).countFormat else s

end Sys2Proof.Machine
end

