-- ==== Sys2Proof/Machine/RingReceive.lean ====
section
/-! DEFINITION. What the receive link brings: framing (R159), discards (R159, R162), receipts of other stations' frames (R165)
and own frames home (R164). -/

namespace Sys2Proof.Machine

/-- A START while HUNTING begins a frame with no bytes (R159). -/
def State.startFrame (s : State) : State :=
  if s.ring.linkUp && decide (s.ring.receiver = .hunting) then
    { s with ring := { s.ring with receiver := .inFrame [] } }
  else s

/-- The receiver after a framing discard: a START begins a new frame, everything else leaves it HUNTING (R159). -/
def afterDiscard : FramingCause → Receiver
  | .idle      => .hunting
  | .start     => .inFrame []
  | .violation => .hunting
  | .growth    => .hunting

/-- A frame IN FRAME is discarded and counted (R159, R175). The command brings the character; growth is taken as reported whatever
the frame's length: the model's choice (log 4). -/
def State.discardFraming (c : FramingCause) (s : State) : State :=
  match s.ring.receiver with
  | .hunting => s
  | .inFrame _ =>
    if s.ring.linkUp then ({ s with ring := { s.ring with receiver := afterDiscard c } }).countFormat else s

/-- FRAME_START (R159). -/
def execFrameStart (s : State) : Result := s.run State.startFrame

/-- FRAMING_DISCARD (R159). -/
def execFramingDiscard (c : FramingCause) (s : State) : Result := s.run (fun s => s.discardFraming c)

/-- FORMAT_DISCARD (R162). -/
def execFormatDiscard (bytes : List Byte) (s : State) : Result := s.run (fun s => s.receiveBad bytes)

/-- CLAIM_RECEIPT (R40). -/
def execClaimReceipt (origin : StationAddr) (hop : Byte) (b : ClaimBody) (s : State) : Result :=
  s.run (fun s => s.receive { origin := origin, hop := hop, body := .claim b })

/-- SETTLE_RECEIPT (R11). -/
def execSettleReceipt (origin : StationAddr) (hop : Byte) (b : SettleBody) (s : State) : Result :=
  s.run (fun s => s.receive { origin := origin, hop := hop, body := .settle b })

/-- RELEASE_RECEIPT (R13). -/
def execReleaseReceipt (origin : StationAddr) (hop : Byte) (b : ReleaseBody) (s : State) : Result :=
  s.run (fun s => s.receive { origin := origin, hop := hop, body := .release b })

/-- ROLL_RECEIPT (R119). -/
def execRollReceipt (origin : StationAddr) (hop : Byte) (b : RollBody) (s : State) : Result :=
  s.run (fun s => s.receive { origin := origin, hop := hop, body := .roll b })

/-- ROSTER_RECEIPT (R126). -/
def execRosterReceipt (origin : StationAddr) (hop : Byte) (b : RosterBody) (s : State) : Result :=
  s.run (fun s => s.receive { origin := origin, hop := hop, body := .roster b })

/-- PROBE_FORWARD (R165). -/
def execProbeForward (origin : StationAddr) (hop : Byte) (sequence : Byte) (s : State) : Result :=
  s.run (fun s => s.receive { origin := origin, hop := hop, body := .probe sequence })

/-- OWN_CLAIM_RETURN (R45). -/
def execOwnClaimReturn (hop : Byte) (b : ClaimBody) (s : State) : Result :=
  s.run (fun s => s.receive { origin := s.station.address, hop := hop, body := .claim b })

/-- OWN_ROLL_RETURN (R122). -/
def execOwnRollReturn (hop : Byte) (b : RollBody) (s : State) : Result :=
  s.run (fun s => s.receive { origin := s.station.address, hop := hop, body := .roll b })

/-- OWN_PROBE_RETURN (R180). -/
def execOwnProbeReturn (hop : Byte) (sequence : Byte) (s : State) : Result :=
  s.run (fun s => s.receive { origin := s.station.address, hop := hop, body := .probe sequence })

/-- OWN_FRAME_STRIPPED (R164). -/
def execOwnFrameStripped (hop : Byte) (b : StrippedBody) (s : State) : Result :=
  s.run (fun s => s.receive { origin := s.station.address, hop := hop, body := b.toBody })

end Sys2Proof.Machine
end

