-- ==== Sys2Proof/Machine/RingTransmit.lean ====
section
/-! DEFINITION. The transmitter's commands: the choice of the next frame (R173), the reports of sent own frames to their makers
(R170), the held origination (R116), the end of LEAVING (R152) and the posting of waiting slots (R106). -/

namespace Sys2Proof.Machine

/-! ### The choice -/

/-- The transmitter comes to a choice and makes it (R158, R173). The bytes of a forwarded frame in progress have been sent by then
(log 4); a silent transmitter and one that is sending an own frame make none. -/
def State.transmitChoice (s : State) : State :=
  match s.ring.transmitter with
  | .silent => s
  | .idle => s.choose
  | .gap _ => s.choose
  | .sendingOwn _ => s
  | .sendingForwarded _ => s.dropForwarded.choose
  | .endDue => s.choose

/-- TRANSMIT_CHOICE (R173). -/
def execTransmitChoice (s : State) : Result := s.run State.transmitChoice

/-! ### Reports of transmission (R170) -/

/-- The last byte of the own frame being sent has left, when it is of the kind named: the frame leaves the head, its maker
is told, and the end of LEAVING is tested (R152, R170). -/
def State.ownSent (kind : Byte) (report : OwnFrame → State → State) (s : State) : State :=
  match s.ring.transmitter, s.outbound with
  | .sendingOwn _, f :: _ => if f.frame.body.kindByte = kind then (report f s.dequeueSent).testLeaving else s
  | _, _ => s

/-- The QUEUED entry that a CLAIM frame belongs to. -/
def ClaimEntry.ownsFrame (b : ClaimBody) (e : ClaimEntry) : Bool :=
  decide (e.phase = .queued) && decide (e.sequence = b.sequence) && decide (e.resource = b.resource) &&
    decide (e.mode = b.mode)

/-- The entry goes CIRCULATING and its circuit timer starts (R36). -/
def ClaimEntry.circulate (e : ClaimEntry) : ClaimEntry := { e with phase := .circulating, timer := 0 }

/-- The report of a sent CLAIM (R36). -/
def State.reportClaim (f : OwnFrame) (s : State) : State :=
  match f.frame.body with
  | .claim b => { s with claim := s.claim.modifyWhere (ClaimEntry.ownsFrame b) ClaimEntry.circulate }
  | _ => s

/-- The lost count equals the retry limit (R54). -/
def State.lostOut (a : Acquire) (s : State) : Bool :=
  match s.station.config with
  | none => false
  | some c => decide (a.lost = c.retry.toNat)

/-- The slot goes back to WAITING and is examined at once (R95). -/
def State.waitAgain (i : SlotIx) (s : State) : State × Work :=
  (s.mapTable (fun t => t.modifySlot i (fun sl =>
      { sl with phase := .waiting, acquire := sl.acquire.map (fun a => { a with report := none }) })),
    [(i, none)])

/-- Stage 1 has gained its hold and a follow-on is present (R95): in LEAVING the hold is given back with stage 2, else stage 2
begins, its slot examined first (R98). -/
def State.chain (i : SlotIx) (s : State) : State × Work :=
  if s.station.state = .leaving then
    (s.mapTable (fun t => t.modifyAcquire i (fun a => { a with stage := .second }))).failAcquire i .aborted
  else
    let (s', w) := s.beginStage2 i
    (s', (i, none) :: w)

/-- A failed circuit in a request that may try again: ABORTED in LEAVING, else WAITING (R95). -/
def State.retry (i : SlotIx) (s : State) : State × Work :=
  if s.station.state = .leaving then s.failAcquire i .aborted else s.waitAgain i

/-- The table of R95 for the ACQUIRE fields of a slot and the report it holds. -/
def State.settleRow (i : SlotIx) (a : Acquire) (r : Report) (s : State) : State × Work :=
  match r with
  | .granted =>
    match a.stage with
    | .second => s.succeedAcquire i
    | .first => if a.followOn.isSome then s.chain i else s.succeedAcquire i
  | .refused => if a.wait then s.retry i else s.failAcquire i .busy
  | .lostCircuit => if s.lostOut a then s.failAcquire i .lost else s.retry i
  | .withdrawn .cancelled => s.failAcquire i .cancelled
  | .withdrawn .leaving => s.failAcquire i .aborted

/-- The slot in SETTLING goes on at the transmission of its SETTLE (R52, R95). -/
def State.settled (i : SlotIx) (s : State) : State × Work :=
  match s.table.slot i with
  | none => (s, [])
  | some sl =>
    match sl.phase, sl.acquire with
    | .settling, some a =>
      match a.report with
      | none => (s, [])
      | some r => s.settleRow i a r
    | _, _ => (s, [])

/-- The report of a sent SETTLE (R52). -/
def State.reportSettle (f : OwnFrame) (s : State) : State :=
  match f.owner with
  | none => s
  | some i => reexamined (s.settled i)

/-- The slot that made a RELEASE goes on (R66, part 3). -/
def State.released (i : SlotIx) (s : State) : State :=
  match s.table.slot i with
  | none => s
  | some sl =>
    if sl.request = .leave then s.leaveStep i else s.mapTable (fun t => t.finishKept i)

/-- The report of a sent RELEASE, its parts in order (R66, log 12). -/
def State.reportRelease (f : OwnFrame) (s : State) : State :=
  match f.frame.body with
  | .release b =>
    let s1 := s.mapLease (LeaseTable.removeHold b.resource)
    let s2 := s1.reexamine (s1.table.offer b.resource)
    match f.owner with
    | none => s2
    | some i => s2.released i
  | _ => s

/-- The outstanding roll goes from QUEUED to CIRCULATING (R117). -/
def RollUnit.circulate (r : RollUnit) : RollUnit :=
  match r.outstanding with
  | none => r
  | some o =>
    if o.phase = .queued then { r with outstanding := some { o with phase := .circulating, sent := true, age := 0 } } else r

/-- The report of a sent ROLL (R117). -/
def State.reportRoll (_f : OwnFrame) (s : State) : State := s.mapRoll RollUnit.circulate

/-- A held origination is made where the state allows it, else dropped (R116). While a ROSTER waits it stays held. -/
def State.makeHeld (s : State) : State :=
  if s.roll.held && !s.rosterWaits then
    if s.mayOriginate then s.makeRoll else s.mapRoll (fun r => { r with held := false })
  else s

/-- The report of a sent ROSTER (R116, R125, log 15). -/
def State.reportRoster (_f : OwnFrame) (s : State) : State := s.makeHeld

/-- The report of a sent PROBE (R180). -/
def State.reportProbe (_f : OwnFrame) (s : State) : State :=
  { s with probe := { s.probe with sendTime := s.station.micros, timer := 0, phase := .out } }

/-- CLAIM_TRANSMITTED (R36). -/
def execClaimTransmitted (s : State) : Result := s.run (State.ownSent 0x51 State.reportClaim)

/-- SETTLE_TRANSMITTED (R95). -/
def execSettleTransmitted (s : State) : Result := s.run (State.ownSent 0x52 State.reportSettle)

/-- RELEASE_TRANSMITTED (R66). -/
def execReleaseTransmitted (s : State) : Result := s.run (State.ownSent 0x53 State.reportRelease)

/-- ROLL_TRANSMITTED (R117). -/
def execRollTransmitted (s : State) : Result := s.run (State.ownSent 0x54 State.reportRoll)

/-- ROSTER_TRANSMITTED (R125). -/
def execRosterTransmitted (s : State) : Result := s.run (State.ownSent 0x55 State.reportRoster)

/-- PROBE_TRANSMITTED (R180). -/
def execProbeTransmitted (s : State) : Result := s.run (State.ownSent 0x56 State.reportProbe)

/-- HELD_ORIGINATION (R116, log 15). -/
def execHeldOrigination (s : State) : Result := s.run State.makeHeld

/-- END_OF_LEAVING (R152, log 15). -/
def execEndOfLeaving (s : State) : Result := s.run State.testLeaving

/-- SLOT_POSTING (R106). -/
def execSlotPosting (s : State) : Result := s.run (fun s => s.mapTable RequestTable.postNext)

end Sys2Proof.Machine
end

