-- ==== Sys2Proof/Machine/Timers.lean ====
section
/-! DEFINITION. Link status (R146, R148, R160, R161) and the expiries of the part's timers (R17, R53, R114, R130 to R132, R181). An
expiry is taken when the timer in the state has reached its limit; else the command changes nothing (log 3). -/

namespace Sys2Proof.Machine

/-! ### Link status -/

/-- The receiver's part of a change to UP (R159, R160). -/
def State.linkComesUp (s : State) : State :=
  { s with ring := { s.ring with linkUp := true, receiver := .hunting, lossTimer := some 0, settleTimer := none } }

/-- The receiver's part of a change to DOWN: a frame IN FRAME is discarded and counted (R160, R161). -/
def State.linkGoesDown (s : State) : State :=
  let s' := match s.ring.receiver with
    | .hunting => s
    | .inFrame _ => s.countFormat
  { s' with ring := { s'.ring with linkUp := false, receiver := .hunting, lossTimer := none, settleTimer := none } }

/-- A roll is originated when the station has none (R115, R146). -/
def State.originateIfNone (s : State) : State :=
  match s.roll.outstanding with
  | none => s.originate
  | some _ => s

/-- The station's part of a change to UP (R146, R148). An UP in ACTIVE, after a roll that completed before the DOWN was taken after it,
moves the link alone (log 34). -/
def State.stationLinkUp (s : State) : State :=
  match s.station.state with
  | .joining => s.originateIfNone.raiseState .linkRestored .joining
  | .broken => (s.enter .resync).originateIfNone.raiseState .linkRestored .broken
  | .leaving => s.raiseState .linkRestored .leaving
  | .unconfigured => s
  | .active => s
  | .resync => s
  | .halted => s

/-- The station's part of a change to DOWN (R144, R147, R148). -/
def State.stationLinkDown (s : State) : State :=
  match s.station.state with
  | .joining => s.raiseState .linkLost .joining
  | .active => ((s.enter .broken).mapRoll (fun r => { r with timer := none })).raiseState .linkLost .active
  | .resync => (s.enter .broken).raiseState .linkLost .resync
  | .leaving => s.raiseState .linkLost .leaving
  | .unconfigured => s
  | .broken => s
  | .halted => s

/-- The receive link goes UP, from DOWN and with BYPASS released (R160, log 4). -/
def State.reportUp (s : State) : State :=
  if s.station.state.onRing && !s.ring.linkUp then s.linkComesUp.stationLinkUp else s

/-- The receive link goes DOWN, from UP (R160, log 4). -/
def State.reportDown (s : State) : State :=
  if s.station.state.onRing && s.ring.linkUp then s.linkGoesDown.stationLinkDown else s

/-- LINK_UP (R160). -/
def execLinkUp (s : State) : Result := s.run State.reportUp

/-- LINK_DOWN (R160). -/
def execLinkDown (s : State) : Result := s.run State.reportDown

/-! ### Claims and intents -/

/-- The CIRCULATING entry of a sequence whose timer has reached tCTO (R36, R53). -/
def ClaimEntry.timedOut (limit : Option Nat) (sequence : Byte) (e : ClaimEntry) : Bool :=
  decide (e.phase = .circulating) && decide (e.sequence = sequence) && reached limit e.timer

/-- The report at an expiry (R53). -/
def State.expiryReport (e : ClaimEntry) (s : State) : Report :=
  if e.cancel then .withdrawn .cancelled
  else if s.station.state = .leaving then .withdrawn .leaving
  else .lostCircuit

/-- The expiry of a circuit timer (R53); every waiting slot is then examined (R92). -/
def State.circuitExpires (sequence : Byte) (s : State) : State :=
  match s.claim.claims.find? (ClaimEntry.timedOut s.tCTO sequence) with
  | none => s
  | some e =>
    let s1 := { s with claim := s.claim.removeWhere (ClaimEntry.timedOut s.tCTO sequence) }
    let s2 := (s1.enqueueSettle e .withdrawn).report e.slot (s.expiryReport e)
    (s2.reexamine s2.table.everyWaiting).testLeaving

/-- CIRCUIT_TIMEOUT (R53). -/
def execCircuitTimeout (sequence : Byte) (s : State) : Result := s.run (fun s => s.circuitExpires sequence)

/-- The intent of a station on a resource has reached tIAGE (R17). -/
def State.intentAged (k : Resource) (x : StationAddr) (s : State) : Bool :=
  match (s.lease.record k).intentOf x with
  | none => false
  | some i => reached s.tIAGE i.age

/-- The expiry of an intent; its resource is offered (R17, R28). -/
def State.intentExpires (k : Resource) (x : StationAddr) (s : State) : State :=
  if s.intentAged k x then
    let s' := s.mapLease (fun l => l.modify k (ResourceRecord.dropIntent x))
    s'.reexamine (s'.table.offer k)
  else s

/-- INTENT_EXPIRY (R17). -/
def execIntentExpiry (resource : Resource) (originator : StationAddr) (s : State) : Result :=
  s.run (fun s => s.intentExpires resource originator)

/-! ### Rolls and the probe -/

/-- The roll timer has reached its period (R114). -/
def State.rollTimerDue (s : State) : Bool :=
  match s.roll.timer with
  | none => false
  | some t => reached s.rollPeriod t

/-- The expiry of the roll timer, taken in ACTIVE with no outstanding roll (R114). -/
def State.rollTimerExpires (s : State) : State :=
  if s.rollTimerDue ∧ s.station.state = .active ∧ s.roll.outstanding = none then s.originate else s

/-- ROLL_TIMER_EXPIRY (R114). -/
def execRollTimerExpiry (s : State) : Result := s.run State.rollTimerExpires

/-- The outstanding roll in a phase has reached age tRCT and ends (R130, R131). -/
def State.rollAgesOut (p : RollPhase) (s : State) : State := if s.roll.aged p s.tRCT then s.loseRoll else s

/-- ROLL_LOST (R130). -/
def execRollLost (s : State) : Result := s.run (State.rollAgesOut .circulating)

/-- ABANDONED_ROLL_EXPIRY (R131). -/
def execAbandonedRollExpiry (s : State) : Result := s.run (State.rollAgesOut .abandoned)

/-- The retired roll has reached age tRCT (R132). -/
def State.retiredDue (s : State) : Bool :=
  match s.roll.retired with
  | none => false
  | some o => reached s.tRCT o.age

/-- The retired roll becomes none at age tRCT (R132). -/
def State.retiredExpires (s : State) : State :=
  if s.retiredDue then s.mapRoll (fun r => { r with retired := none }) else s

/-- RETIRED_ROLL_EXPIRY (R132). -/
def execRetiredRollExpiry (s : State) : Result := s.run State.retiredExpires

/-- The probe is OUT and its timer has reached 65,535 µs (R181). -/
def State.probeDue (s : State) : Bool := decide (s.probe.phase = .out) && decide (Config.probeMicros ≤ s.probe.timer)

/-- The expiry of the probe timer (R181). -/
def State.probeExpires (s : State) : State :=
  if s.probeDue then { s with probe := { s.probe with time := 0xFFFF, done := true, phase := .idle } } else s

/-- PROBE_TIMEOUT (R181). -/
def execProbeTimeout (s : State) : Result := s.run State.probeExpires

end Sys2Proof.Machine
end

