-- ==== Sys2Proof/Machine/Dispatch.lean ====
section
/-! DEFINITION. Each command with its meaning. -/

namespace Sys2Proof.Machine

def exec (i : Instr) (s : State) : Host.Outcome State Fault Refusal :=
  match i with
  | .powerFail => Sys2Proof.Machine.execPowerFail s
  | .resetAsserted lowNs => Sys2Proof.Machine.execResetAsserted lowNs s
  | .resetReleased cause straps => Sys2Proof.Machine.execResetReleased cause straps s
  | .requestAssemblyByte b y => Sys2Proof.Machine.execRequestAssemblyByte b s y
  | .configure r => Sys2Proof.Machine.execConfigure r s
  | .acquire r => Sys2Proof.Machine.execAcquire r s
  | .release r => Sys2Proof.Machine.execRelease r s
  | .cancel r => Sys2Proof.Machine.execCancel r s
  | .query r => Sys2Proof.Machine.execQuery r s
  | .stats r => Sys2Proof.Machine.execStats r s
  | .clearFault r => Sys2Proof.Machine.execClearFault r s
  | .leave r => Sys2Proof.Machine.execLeave r s
  | .restart r => Sys2Proof.Machine.execRestart r s
  | .completionRead noticeFirst y => Sys2Proof.Machine.execCompletionRead noticeFirst s y
  | .abandon b y => Sys2Proof.Machine.execAbandon b s y
  | .clearRefused b y => Sys2Proof.Machine.execClearRefused b s y
  | .clearNoticeLost b y => Sys2Proof.Machine.execClearNoticeLost b s y
  | .clearProbeDone b y => Sys2Proof.Machine.execClearProbeDone b s y
  | .clearProbeBusy b y => Sys2Proof.Machine.execClearProbeBusy b s y
  | .intmaskWrite b y => Sys2Proof.Machine.execIntmaskWrite b s y
  | .probeTimeLoRead y => Sys2Proof.Machine.execProbeTimeLoRead s y
  | .probe b y => Sys2Proof.Machine.execProbe b s y
  | .ignoredWrite a b y => Sys2Proof.Machine.execIgnoredWrite a b s y
  | .framingDiscard c => Sys2Proof.Machine.execFramingDiscard c s
  | .formatDiscard bytes => Sys2Proof.Machine.execFormatDiscard bytes s
  | .claimReceipt origin hop b => Sys2Proof.Machine.execClaimReceipt origin hop b s
  | .settleReceipt origin hop b => Sys2Proof.Machine.execSettleReceipt origin hop b s
  | .releaseReceipt origin hop b => Sys2Proof.Machine.execReleaseReceipt origin hop b s
  | .rollReceipt origin hop b => Sys2Proof.Machine.execRollReceipt origin hop b s
  | .rosterReceipt origin hop b => Sys2Proof.Machine.execRosterReceipt origin hop b s
  | .probeForward origin hop sequence => Sys2Proof.Machine.execProbeForward origin hop sequence s
  | .ownClaimReturn hop b => Sys2Proof.Machine.execOwnClaimReturn hop b s
  | .ownRollReturn hop b => Sys2Proof.Machine.execOwnRollReturn hop b s
  | .ownProbeReturn hop sequence => Sys2Proof.Machine.execOwnProbeReturn hop sequence s
  | .ownFrameStripped hop b => Sys2Proof.Machine.execOwnFrameStripped hop b s
  | .transmitChoice => Sys2Proof.Machine.execTransmitChoice s
  | .claimTransmitted => Sys2Proof.Machine.execClaimTransmitted s
  | .settleTransmitted => Sys2Proof.Machine.execSettleTransmitted s
  | .releaseTransmitted => Sys2Proof.Machine.execReleaseTransmitted s
  | .rollTransmitted => Sys2Proof.Machine.execRollTransmitted s
  | .rosterTransmitted => Sys2Proof.Machine.execRosterTransmitted s
  | .heldOrigination => Sys2Proof.Machine.execHeldOrigination s
  | .probeTransmitted => Sys2Proof.Machine.execProbeTransmitted s
  | .linkUp => Sys2Proof.Machine.execLinkUp s
  | .linkDown => Sys2Proof.Machine.execLinkDown s
  | .circuitTimeout sequence => Sys2Proof.Machine.execCircuitTimeout sequence s
  | .intentExpiry resource originator => Sys2Proof.Machine.execIntentExpiry resource originator s
  | .rollTimerExpiry => Sys2Proof.Machine.execRollTimerExpiry s
  | .rollLost => Sys2Proof.Machine.execRollLost s
  | .abandonedRollExpiry => Sys2Proof.Machine.execAbandonedRollExpiry s
  | .retiredRollExpiry => Sys2Proof.Machine.execRetiredRollExpiry s
  | .probeTimeout => Sys2Proof.Machine.execProbeTimeout s
  | .endOfLeaving => Sys2Proof.Machine.execEndOfLeaving s
  | .slotPosting => Sys2Proof.Machine.execSlotPosting s
  | .frameStart => Sys2Proof.Machine.execFrameStart s

end Sys2Proof.Machine
end

