-- ==== Sys2Proof/Machine/Time.lean ====
section
/-! DEFINITION. What the part does on its own while no command waits (log 2): an event that has come due is put in the queue, else one
character time of 100 ns passes on the link, the transmitter and the timers (R138, R158 to R160, R163), and in reset tPOR is counted (R211). -/

namespace Sys2Proof.Machine

/-! ### The timers (R138) -/

/-- A circuit timer runs while its entry is CIRCULATING (R36), and stands still while it is QUEUED: the model's choice (log 38). -/
def ClaimEntry.tick (e : ClaimEntry) : ClaimEntry :=
  match e.phase with
  | .queued => e
  | .circulating => { e with timer := e.timer + 1 }

/-- The age of the outstanding roll runs while it is CIRCULATING or ABANDONED (R111), and stands still while it is QUEUED: the model's
choice (log 38). -/
def OutstandingRoll.tick (o : OutstandingRoll) : OutstandingRoll :=
  match o.phase with
  | .queued => o
  | .circulating => { o with age := o.age + 1 }
  | .abandoned => { o with age := o.age + 1 }

/-- The Roll Unit's timers count one character time (R111, R114, R132). -/
def RollUnit.tick (r : RollUnit) : RollUnit :=
  { r with
    outstanding := r.outstanding.map OutstandingRoll.tick
    retired := r.retired.map (fun o => { o with age := o.age + 1 })
    timer := r.timer.map (· + 1) }

/-- The probe timer runs while the probe is OUT (R178), a step of the microsecond counter at a time (R181); else it keeps its value: the
model's choice (log 38). -/
def ProbeUnit.tick (p : ProbeUnit) : ProbeUnit :=
  match p.phase with
  | .idle => p
  | .queued => p
  | .out => { p with timer := p.timer + 1 }

/-- The microsecond counter and the probe timer, which counts its steps, at a character time: the tenth completes a microsecond
(R138, R178, log 19). -/
def State.tickMicro (s : State) : State :=
  if s.station.subMicro + 1 < Config.charactersPerMicro then
    { s with station := { s.station with subMicro := s.station.subMicro + 1 } }
  else
    { s with
      station := { s.station with micros := s.station.micros + 1, subMicro := 0 }
      probe := s.probe.tick }

/-- A character time passes for every timer (R138, R209): circuit timers, ages and the roll timer each count from their own start
(log 19). -/
def State.tickCharacter (s : State) : State :=
  { s.tickMicro with
    lease := s.lease.mapRecords ResourceRecord.tick
    claim := { s.claim with claims := s.claim.claims.map ClaimEntry.tick }
    roll := s.roll.tick }

/-! ### The transmitter's character (R158) -/

/-- The character at a place of a frame: START, then the bytes in order (R158). -/
def frameChar (f : Frame) (place : Nat) : LinkChar :=
  match place with
  | 0 => .start
  | n + 1 => .data (f.bytes.getD n 0)

/-- A character goes out and the transmitter takes its next condition. -/
def State.sendChar (c : LinkChar) (t : Transmitter) (s : State) : State :=
  { s with ring := { s.ring with txLine := c, transmitter := t } }

/-- The transmitter sends one character (R158). The last byte of a forwarded frame takes the frame from the queue (R168);
the last byte of an own frame waits for its report (R170). -/
def State.transmitChar (s : State) : State :=
  match s.ring.transmitter with
  | .silent => s.sendChar .silence .silent
  | .idle => s.sendChar .idle .idle
  | .gap left => s.sendChar .idle (.gap (left - 1))
  | .sendingOwn sent =>
    match s.outbound with
    | [] => s.sendChar .idle .idle
    | f :: _ => s.sendChar (frameChar f.frame sent) (.sendingOwn (sent + 1))
  | .sendingForwarded sent =>
    match s.ring.forwarding with
    | [] => s.sendChar .idle .idle
    | f :: _ =>
      let s' := s.sendChar (frameChar f sent) (.sendingForwarded (sent + 1))
      if sent = f.length then s'.dropForwarded else s'
  | .endDue => s.sendChar .endChar (.gap Config.gapCharacters)

/-! ### The receiver's character (R159, R160) -/

/-- A character that is not a code violation; silence is no character (R160). -/
def LinkChar.valid : LinkChar → Bool
  | .idle      => true
  | .start     => true
  | .endChar   => true
  | .data _    => true
  | .violation => false
  | .silence   => false

/-- The link timers at a character time (R160): UP, the loss timer counts the character times since the last valid character; DOWN,
the settle timer counts the valid characters of an unbroken run. -/
def RingPort.timeLink (c : LinkChar) (r : RingPort) : RingPort :=
  if r.linkUp then { r with lossTimer := if c.valid then some 0 else r.lossTimer.map (· + 1) }
  else { r with settleTimer := if c.valid then some (r.settleTimer.getD 0 + 1) else none }

/-- A data character IN FRAME: the byte is added, or the frame has grown past 361 bytes (R159). -/
def State.frameByte (b : Byte) (bytes : List Byte) (s : State) : State :=
  if bytes.length < Config.longestFrame then { s with ring := { s.ring with receiver := .inFrame (bytes ++ [b]) } }
  else s.discardFraming .growth

/-- END IN FRAME: the frame is complete and goes to its processing time (R159, R163). -/
def State.frameEnd (bytes : List Byte) (s : State) : State :=
  { s with ring := { s.ring with
      receiver := .hunting
      processing := s.ring.processing ++ [{ bytes := bytes, left := Config.procCharacters }] } }

/-- The table of R159, with the link UP. -/
def State.frameCharacter (c : LinkChar) (s : State) : State :=
  match s.ring.receiver, c with
  | .hunting, .start => s.startFrame
  | .hunting, _ => s
  | .inFrame bytes, .data b => s.frameByte b bytes
  | .inFrame bytes, .endChar => s.frameEnd bytes
  | .inFrame _, .idle => s.discardFraming .idle
  | .inFrame _, .start => s.discardFraming .start
  | .inFrame _, .violation => s.discardFraming .violation
  | .inFrame _, .silence => s

/-- The character on the receive line: the next of those to arrive; with none, the line goes on as it is (log 5). -/
def State.nextChar (s : State) : LinkChar :=
  match s.rxLine with
  | c :: _ => c
  | [] => if s.ring.linkUp then .idle else .silence

/-- The receiver takes one character; with BYPASS asserted it takes none (R177). -/
def State.receiveChar (s : State) : State :=
  let c := s.nextChar
  let s1 := { s with rxLine := s.rxLine.tail }
  if s1.station.state.onRing then
    let s2 := { s1 with ring := s1.ring.timeLink c }
    if s2.ring.linkUp then s2.frameCharacter c else s2
  else s1

/-- The frames in their processing time come one character time nearer its end (R163). -/
def State.countProcessing (s : State) : State :=
  { s with ring := { s.ring with processing := s.ring.processing.map (fun a => { a with left := a.left - 1 }) } }

/-- One character time passes. -/
def State.characterTime (s : State) : State := s.tickCharacter.countProcessing.transmitChar.receiveChar

/-! ### Events that have come due -/

/-- The row of the table that an arrived frame belongs to (R162, R164, R165). -/
def receiptOf (self : StationAddr) (bytes : List Byte) : Instr :=
  match parseFrame bytes with
  | none => .formatDiscard bytes
  | some f =>
    if f.origin = self then
      match f.body with
      | .claim b => .ownClaimReturn f.hop b
      | .settle b => .ownFrameStripped f.hop (.settle b)
      | .release b => .ownFrameStripped f.hop (.release b)
      | .roll b => .ownRollReturn f.hop b
      | .roster b => .ownFrameStripped f.hop (.roster b)
      | .probe q => .ownProbeReturn f.hop q
    else
      match f.body with
      | .claim b => .claimReceipt f.origin f.hop b
      | .settle b => .settleReceipt f.origin f.hop b
      | .release b => .releaseReceipt f.origin f.hop b
      | .roll b => .rollReceipt f.origin f.hop b
      | .roster b => .rosterReceipt f.origin f.hop b
      | .probe q => .probeForward f.origin f.hop q

/-- The head of the frames in processing time has reached the end of its tPROC (R163). -/
def State.receiptDue (s : State) : Option Instr :=
  match s.ring.processing with
  | [] => none
  | a :: _ => if a.left = 0 then some (receiptOf s.station.address a.bytes) else none

/-- The report of a sent own frame (R170). -/
def sentRow : Body → Instr
  | .claim _   => .claimTransmitted
  | .settle _  => .settleTransmitted
  | .release _ => .releaseTransmitted
  | .roll _    => .rollTransmitted
  | .roster _  => .rosterTransmitted
  | .probe _   => .probeTransmitted

/-- The last byte of the own frame in progress has been sent: START and the frame's bytes (R158, R170). -/
def State.sentDue (s : State) : Option Instr :=
  match s.ring.transmitter, s.outbound with
  | .sendingOwn sent, f :: _ => if f.frame.length < sent then some (sentRow f.frame.body) else none
  | _, _ => none

/-- A change of link status is due (R160). -/
def State.linkDue (s : State) : Option Instr :=
  if Config.losCharacters ≤ s.ring.lossTimer.getD 0 then some .linkDown
  else if Config.upCharacters ≤ s.ring.settleTimer.getD 0 then some .linkUp
  else none

/-- The first intent that has reached tIAGE, in increasing resource number (R17). -/
def State.intentDue (s : State) : Option Instr :=
  (List.finRange 64).findSome? (fun k =>
    ((s.lease.record k).intents.find? (fun i => reached s.tIAGE i.age)).map (fun i => .intentExpiry k i.originator))

/-- The first claim whose circuit timer has reached tCTO (R36). -/
def State.circuitDue (s : State) : Option Instr :=
  (s.claim.claims.find? (fun e => e.timedOut s.tCTO e.sequence)).map (fun e => .circuitTimeout e.sequence)

/-- A flag that says an event is due, with the event. -/
def dueIf (b : Bool) (i : Instr) : Option Instr := if b then some i else none

/-- A choice is due: the gap has been sent, or the transmitter is idle and a frame is available (R173). The second stands in no
state that a run reaches, since what makes the frame available chooses it (log 33). -/
def State.choiceDue (s : State) : Bool :=
  match s.ring.transmitter with
  | .silent => false
  | .idle => !s.noFrame
  | .gap left => decide (left = 0)
  | .sendingOwn _ => false
  | .sendingForwarded _ => false
  | .endDue => false

/-- The event that is due, the first of a fixed order where several are (log 7). -/
def State.nextDue (s : State) : Option Instr :=
  [dueIf s.choiceDue .transmitChoice, s.receiptDue, s.sentDue, s.linkDue, s.circuitDue, s.intentDue,
    dueIf (s.rollTimerDue && decide (s.station.state = .active) && s.roll.outstanding.isNone) .rollTimerExpiry,
    dueIf (s.roll.aged .circulating s.tRCT) .rollLost,
    dueIf (s.roll.aged .abandoned s.tRCT) .abandonedRollExpiry,
    dueIf s.retiredDue .retiredRollExpiry,
    dueIf s.probeDue .probeTimeout,
    dueIf (s.roll.held && !s.rosterWaits) .heldOrigination,
    dueIf s.leavingDone .endOfLeaving,
    dueIf (!s.table.posting.isEmpty && s.table.admits) .slotPosting].findSome? id

/-- A step in reset with no command waiting: the blocks stand still (R140), and in a power-on reset tPOR is counted; at its end the
release is put in the queue, with the straps as they stand (R209, R211, log 30). -/
def State.resetStep (s : State) : State :=
  if s.supplyLow then
    if s.porTimer < Config.porCharacters then { s with porTimer := s.porTimer + 1 }
    else { s with pending := s.pending ++ [.resetReleased .powerOnEnds s.straps] }
  else s

/-- With no command waiting: in reset only tPOR is counted; else a due event is put in the queue, or one character time passes
(log 2). -/
def State.idleStep (s : State) : State :=
  if s.inReset then s.resetStep
  else match s.nextDue with
    | some c => { s with pending := s.pending ++ [c] }
    | none => s.characterTime

end Sys2Proof.Machine
end

