-- ==== Sys2Proof/Safety.lean ====
section
/-! DEFINITION. The laws that every step keeps, each as a property of one state: R1, R2, R5, R31, R77, R90, R105, R167, R169, R172, R185
and R190. -/

namespace Sys2Proof.Machine

/-- The holders of a record in increasing order, each once, and the intents in increasing order of originator, at most one of each
(R1, R27, log 28). -/
abbrev ResourceRecord.sorted (r : ResourceRecord) : Prop :=
  r.holders.Pairwise (· < ·) ∧ (r.intents.map Intent.originator).Pairwise (· < ·)

/-- R1 and R2: the mode and the holders of a record agree, no holder has an intent in it, and both sets stand in order. -/
abbrev ResourceRecord.lawful (r : ResourceRecord) : Prop :=
  (r.mode = none ↔ r.holders = []) ∧ (r.mode = some .exclusive → r.holders.length = 1) ∧
    (∀ i ∈ r.intents, i.originator ∉ r.holders) ∧ r.sorted

/-- R1 and R2 for the whole replica. -/
abbrev State.replicaLawful (s : State) : Prop := ∀ k : Resource, (s.lease.record k).lawful

/-- R5: the clients of an entry by its mode and phase, in increasing order, each once (log 28). -/
abbrev HoldEntry.lawful (e : HoldEntry) : Prop :=
  (e.phase = .held → e.mode = .exclusive → e.clients.length = 1) ∧ (e.phase = .held → e.clients ≠ []) ∧
    (e.phase = .releasing → e.clients = []) ∧ (e.clients.map Prod.fst).Pairwise (· < ·)

/-- The resources of the local hold list and of the outstanding-claim list. -/
def State.engaged (s : State) : List Resource :=
  s.lease.holds.map HoldEntry.resource ++ s.claim.claims.map ClaimEntry.resource

/-- R5, R31 and R90: at most 4 claims, at most 16 holds and claims together, no resource twice among them, and every entry
with the clients its mode and phase allow. -/
abbrev State.holdsLawful (s : State) : Prop :=
  s.claim.claims.length ≤ Config.claimLimit ∧
    s.lease.holds.length + s.claim.claims.length ≤ Config.holdLimit ∧
    s.engaged.Nodup ∧ ∀ e ∈ s.lease.holds, e.lawful

/-- R105: at most 16 records, of which at most 14 are completion records. -/
abbrev State.queueWithinLimits (s : State) : Prop :=
  s.table.queue.length ≤ Config.queueLimit ∧ s.table.completions ≤ Config.completionLimit

/-- R190 and R191: the read position lies within the head record, and is 0 when the queue is empty. -/
abbrev State.readPositionWithin (s : State) : Prop :=
  (s.table.queue = [] → s.host.readPos = 0) ∧ ∀ r ∈ s.table.queue.head?, s.host.readPos < r.bytes.length

/-- The slot phase in which a slot's frame waits in the Outbound Queue; a ROLL, a ROSTER and a PROBE belong to no slot (R78, R169). -/
def OwnFrame.slotPhase (f : OwnFrame) : Option SlotPhase :=
  match f.frame.body with
  | .claim _   => some .claiming
  | .settle _  => some .settling
  | .release _ => some .releasing
  | .roll _    => none
  | .roster _  => none
  | .probe _   => none

/-- A ROLL or a ROSTER (R116). -/
def OwnFrame.isOfRollUnit (f : OwnFrame) : Bool := f.frame.body.isRoll || f.frame.body.isRoster

/-- A PROBE (R179). -/
def OwnFrame.isProbe (f : OwnFrame) : Bool := decide (f.frame.body.kindByte = 0x56)

/-- The phase of a slot, none when it is free. -/
def State.phaseOf (i : SlotIx) (s : State) : Option SlotPhase := (s.table.slot i).map Slot.phase

/-- A frame of a slot waits in that slot's phase for it; any other frame has no slot (R78, R169). -/
def State.inItsPhase (s : State) (f : OwnFrame) : Bool :=
  match f.owner with
  | none => decide (f.slotPhase = none)
  | some i => f.slotPhase.isSome && decide (s.phaseOf i = f.slotPhase)

/-- A waiting CLAIM frame is that of the QUEUED claim of its slot (R31, R34). -/
def State.hasItsClaim (s : State) (f : OwnFrame) : Bool :=
  match f.frame.body with
  | .claim b   => s.claim.claims.any (fun e => decide (f.owner = some e.slot) && e.ownsFrame b)
  | .settle _  => true
  | .release _ => true
  | .roll _    => true
  | .roster _  => true
  | .probe _   => true

/-- R169: at most one frame of each slot, at most one ROLL or ROSTER, and at most one PROBE. -/
abbrev State.outboundWithinPlaces (s : State) : Prop :=
  (s.outbound.filterMap OwnFrame.owner).Nodup ∧ (s.outbound.filter OwnFrame.isOfRollUnit).length ≤ 1 ∧
    (s.outbound.filter OwnFrame.isProbe).length ≤ 1

/-- What the makers' own rules keep, so that R169's law holds (R31, R78, R79, R106, R116, R179): frames wait in their slot's phase; each
claim has a slot of its own in CLAIMING, and a waiting CLAIM frame the QUEUED claim of its slot; the slots to post are in POSTING, each
once; a ROLL waits exactly while the outstanding roll is QUEUED; no roll is outstanding while a ROSTER waits or an origination is held;
and a PROBE waits exactly while the probe unit is QUEUED. -/
abbrev State.makersInStep (s : State) : Prop :=
  (∀ f ∈ s.outbound, s.inItsPhase f = true ∧ s.hasItsClaim f = true) ∧
    ((s.claim.claims.map ClaimEntry.slot).Nodup ∧ ∀ e ∈ s.claim.claims, s.phaseOf e.slot = some .claiming) ∧
    (s.table.posting.Nodup ∧ ∀ i ∈ s.table.posting, s.phaseOf i = some .posting) ∧
    (s.outbound.any (fun f => f.frame.body.isRoll) = s.roll.inPhase .queued) ∧
    ((s.rosterWaits = true ∨ s.roll.held = true) → s.roll.outstanding = none) ∧
    s.outbound.any OwnFrame.isProbe = decide (s.probe.phase = .queued)

/-- R169, with what the makers' rules keep for it. -/
abbrev State.outboundLawful (s : State) : Prop := s.outboundWithinPlaces ∧ s.makersInStep

/-- The forwarded frame in progress stands at the head of the queue, and not all of it has been sent (R168). -/
def RingPort.forwardingInProgress (r : RingPort) : Bool :=
  match r.transmitter, r.forwarding with
  | .sendingForwarded _, [] => false
  | .sendingForwarded sent, f :: _ => decide (sent ≤ f.length)
  | _, _ => true

/-- R167, R172 and R177: the forwarding queue holds at most 4,096 bytes, those already sent not counted, the relief counter is at
most 8, and a station off the ring has a silent transmitter and an empty forwarding queue. -/
abbrev State.forwardingWithinLimits (s : State) : Prop :=
  s.ring.queuedBytes - s.ring.sentBytes ≤ Config.forwardingBytes ∧ s.ring.relief ≤ Config.reliefLimit ∧
    s.ring.forwardingInProgress = true ∧
    (s.station.state.onRing = false → s.ring.transmitter = .silent ∧ s.ring.forwarding = [])

/-- R77: the acceptance numbers of the occupied slots are 1 up to their count. -/
abbrev RequestTable.numbered (t : RequestTable) : Prop :=
  ∀ n : Fin 8, (n.val < t.occupied ↔ ∃ i : SlotIx, (t.slot i).map Slot.accept = some (n.val + 1)) ∧
    ∀ i j : SlotIx, (t.slot i).map Slot.accept = some (n.val + 1) → (t.slot j).map Slot.accept = some (n.val + 1) → i = j

/-- R185: the buffer holds at most 40 bytes of a record, and the count is below the declared length. -/
def Assembly.within (a : Assembly) : Bool :=
  match a with
  | .empty => true
  | .kind _ => true
  | .counting stored declared count =>
    decide (stored.length = min count Config.assemblyBytes) && decide (2 ≤ count) && decide (count < declared.toNat)

end Sys2Proof.Machine
end

