-- ==== Sys2Proof/Certificates/Slice0/Obligations.lean ====
section
/-! DEFINITION. The statements for the provers. Each says what its name says; hypotheses name the state and the operands alone. -/

namespace Sys2Proof.Statement
open Sys2Proof.Machine

/-! ### Words the statements share -/

/-- The request command of a kind. -/
def request : RequestKind → HostRecord → Instr
  | .configure  => .configure
  | .acquire    => .acquire
  | .release    => .release
  | .cancel     => .cancel
  | .query      => .query
  | .stats      => .stats
  | .clearFault => .clearFault
  | .leave      => .leave
  | .restart    => .restart

/-- The receipt command of another station's frame. -/
def receipt (f : Frame) : Instr :=
  match f.body with
  | .claim b   => .claimReceipt f.origin f.hop b
  | .settle b  => .settleReceipt f.origin f.hop b
  | .release b => .releaseReceipt f.origin f.hop b
  | .roll b    => .rollReceipt f.origin f.hop b
  | .roster b  => .rosterReceipt f.origin f.hop b
  | .probe q   => .probeForward f.origin f.hop q

/-- The command of this station's own frame that comes home. -/
def homecoming (f : Frame) : Instr :=
  match f.body with
  | .claim b   => .ownClaimReturn f.hop b
  | .settle b  => .ownFrameStripped f.hop (.settle b)
  | .release b => .ownFrameStripped f.hop (.release b)
  | .roll b    => .ownRollReturn f.hop b
  | .roster b  => .ownFrameStripped f.hop (.roster b)
  | .probe q   => .ownProbeReturn f.hop q

/-- The report of a sent own frame, by its kind (R170). -/
def reportOf : Body → Instr
  | .claim _   => .claimTransmitted
  | .settle _  => .settleTransmitted
  | .release _ => .releaseTransmitted
  | .roll _    => .rollTransmitted
  | .roster _  => .rosterTransmitted
  | .probe _   => .probeTransmitted

/-- The bytes written to REQUEST one after another, each as a command. -/
def writeBytes : List Byte → State → Result
  | [], s => .next s
  | b :: bs, s =>
    match exec (.requestAssemblyByte b) s with
    | .next t => writeBytes bs t
    | .fault e => .fault e
    | .refused e => .refused e

/-- The command is one of the three that make and end reset. -/
def isPower : Instr → Bool
  | .powerFail => true
  | .resetAsserted _ => true
  | .resetReleased _ _ => true
  | _ => false

/-- The strobe is long enough to be taken (R212). -/
abbrev taken (y : Strobe) : Prop := 60 ≤ y.lowNs

/-- The command is a port read that is taken as one: its strobe long enough, and WR high (R212). -/
def isRead : Instr → Bool
  | .completionRead _ y => decide (taken y) && !y.both
  | .probeTimeLoRead y => decide (taken y) && !y.both
  | _ => false

/-- The port cycles, each with the strobe it is given; none for a command that is no port cycle. -/
def cycle (y : Strobe) : Instr → Option Instr
  | .requestAssemblyByte b _ => some (.requestAssemblyByte b y)
  | .completionRead n _ => some (.completionRead n y)
  | .abandon b _ => some (.abandon b y)
  | .clearRefused b _ => some (.clearRefused b y)
  | .clearNoticeLost b _ => some (.clearNoticeLost b y)
  | .clearProbeDone b _ => some (.clearProbeDone b y)
  | .clearProbeBusy b _ => some (.clearProbeBusy b y)
  | .intmaskWrite b _ => some (.intmaskWrite b y)
  | .probeTimeLoRead _ => some (.probeTimeLoRead y)
  | .probe b _ => some (.probe b y)
  | .ignoredWrite a b _ => some (.ignoredWrite a b y)
  | _ => none

/-- A committed record of good form finds the free slot i. -/
abbrev finds (i : SlotIx) (k : RequestKind) (r : HostRecord) (s : State) : Prop :=
  s.inReset = false ∧ formOk k r = true ∧ s.table.lowestFree = some i

/-- The state with the record accepted into slot i, the assembly buffer EMPTY (R79, R186). -/
def accepted (i : SlotIx) (k : RequestKind) (r : HostRecord) (s : State) : State :=
  ({ s with host := { s.host with assembly := .empty } }).occupy i r.clientNo r.tag (requestOf k r)

/-- The state with the record dropped and REFUSED set (R187, R188). -/
def dropped (s : State) : State := { s with host := { s.host with assembly := .empty, refused := true } }

/-- The states in which an ACQUIRE, a RELEASE or a LEAVE proceeds (R80). -/
abbrev proceeds (st : StationState) : Prop :=
  st = .joining ∨ st = .active ∨ st = .broken ∨ st = .resync

/-- The pairs of kind and state that R80 marks NOT_READY, a RESTART taken without a slot apart. -/
abbrev notReadyIn (k : RequestKind) (st : StationState) : Prop :=
  (st = .unconfigured ∧ k ≠ .configure ∧ k ≠ .query ∧ k ≠ .stats) ∨
    (proceeds st ∧ k = .configure) ∨
    (st = .leaving ∧ (k = .configure ∨ k = .acquire ∨ k = .leave)) ∨
    (st = .halted ∧ k ≠ .query ∧ k ≠ .stats ∧ k ≠ .restart)

/-- The ACQUIRE fields a record starts with, none when one is out of range (R84 check 1, R85). -/
def acquireOf (r : HostRecord) : Option Acquire :=
  startAcquire (r.field 0) (r.field 1) (r.field 2) (if r.declared.toNat = 8 then some (r.field 3) else none)

/-- The accepted ACQUIRE, past its checks, about to be examined (R85). -/
def started (i : SlotIx) (r : HostRecord) (a : Acquire) (s : State) : State :=
  (accepted i .acquire r s).mapTable (fun t => t.modifySlot i (fun sl => { sl with acquire := some a }))

/-- The station takes a frame of these bytes: out of reset, on the ring, and with the link UP (R165), or DOWN where the frame stands at
the head of those in processing time, its END before the DOWN (R161, log 8). -/
abbrev receives (bytes : List Byte) (s : State) : Prop :=
  s.inReset = false ∧ s.station.state.onRing = true ∧
    (s.ring.linkUp = true ∨ s.ring.processing.head?.map Arrived.bytes = some bytes)

/-- Another station's frame arrives whole, or was complete before a DOWN, with a hop count below 15, at a station not about to end LEAVING
(R161, R164). -/
abbrev foreign (f : Frame) (s : State) : Prop :=
  receives f.bytes s ∧ f.wf = true ∧ f.origin ≠ s.station.address ∧ f.hop.toNat < 15 ∧ s.leavingDone = false

/-- The station takes other stations' frames into its replica (R3). -/
abbrev applies (s : State) : Prop := s.station.state ≠ .joining

/-- A frame of this station as its makers place it in the Outbound Queue: hop count 0 (R169). -/
def made (s : State) (o : Option SlotIx) (b : Body) : OwnFrame :=
  { frame := { origin := s.station.address, hop := 0, body := b }, owner := o }

/-- The head of the Outbound Queue is being sent. -/
def sends (f : OwnFrame) (rest : List OwnFrame) (s : State) : Prop :=
  s.inReset = false ∧ (∃ n, s.ring.transmitter = .sendingOwn n) ∧ s.outbound = f :: rest

/-- The state with the sent head gone: END due, the relief counter 0 when the queue is empty (R170, R172). -/
def sentHead (rest : List OwnFrame) (s : State) : State :=
  { s with
    outbound := rest
    ring := { s.ring with transmitter := .endDue, relief := if rest = [] then 0 else s.ring.relief } }

/-- A hold of this station on the claim's resource conflicts with it (R26, R37). -/
def holdObjects (b : ClaimBody) (s : State) : Prop :=
  ∃ e, s.lease.hold? b.resource = some e ∧ (e.mode = .exclusive ∨ b.mode = .exclusive)

/-- A claim of this station on the same resource conflicts with the passing one (R37). -/
def claimMeets (e : ClaimEntry) (b : ClaimBody) (s : State) : Prop :=
  s.claim.claimOn b.resource = some e ∧ (e.mode = .exclusive ∨ b.mode = .exclusive)

/-- This station's claim entry precedes another station's claim (R38). -/
def entryPrecedes (e : ClaimEntry) (o : StationAddr) (b : ClaimBody) (s : State) : Prop :=
  patienceOf b.patience < e.patience ∨ (e.patience = patienceOf b.patience ∧ s.station.address < o)

/-- The station objects to a passing claim (R40, R41). -/
def objects (o : StationAddr) (b : ClaimBody) (s : State) : Prop :=
  holdObjects b s ∨ ∃ e, claimMeets e b s ∧ entryPrecedes e o b s

/-- The station's own claim yields to a passing claim (R41). -/
def yields (o : StationAddr) (b : ClaimBody) (s : State) : Prop :=
  ¬ holdObjects b s ∧ ∃ e, claimMeets e b s ∧ ¬ entryPrecedes e o b s

/-- What a passing claim leaves in the replica: its intent, and the offer when it came from a holder (R10, R28). -/
def intentTaken (o : StationAddr) (b : ClaimBody) (s : State) : State :=
  let t := s.mapLease (fun l => l.modify b.resource
    (ResourceRecord.recordIntent { originator := o, mode := b.mode, sequence := b.sequence, age := 0 }))
  if o ∈ (s.lease.record b.resource).holders then t.reexamine (t.table.offer b.resource) else t

/-- The answer of a command whose change turns s into t. Where s had no frame available, an idle transmitter makes its choice at the end
of the change (R173, log 33). -/
abbrev atOnce (s t : State) : Result := .next (t.startIdle s)

/-- The transmitter stands at a frame boundary (R173). -/
def atBoundary : Transmitter → Bool
  | .silent => false
  | .idle => true
  | .gap _ => true
  | .sendingOwn _ => false
  | .sendingForwarded _ => false
  | .endDue => true

/-- A resource is the current resource of ACQUIRE fields (R77). -/
def seeks (a : Acquire) (k : Resource) : Prop :=
  (a.stage = .first ∧ a.first = k) ∨ (a.stage = .second ∧ a.followOn.getD a.first = k)

/-- Another slot, accepted earlier than slot i, stands for the resource (R86). -/
def standsEarlier (i : SlotIx) (k : Resource) (s : State) : Prop :=
  ∃ sl j x b, s.table.slot i = some sl ∧ s.table.slot j = some x ∧ x.accept < sl.accept ∧ x.acquire = some b ∧
    (x.phase = .waiting ∨ x.phase = .claiming ∨ x.phase = .settling) ∧ seeks b k

/-- The replica shows a conflict for a mode on a resource (R25). -/
def conflictShown (k : Resource) (m : Mode) (s : State) : Prop :=
  (∃ y ∈ (s.lease.record k).holders, y ≠ s.station.address ∧ ((s.lease.record k).mode = some .exclusive ∨ m = .exclusive)) ∨
    ∃ i ∈ (s.lease.record k).intents, i.mode = .exclusive ∨ m = .exclusive

/-- ACQUIRE fields name a resource as first or follow-on (R84). -/
def seeksEver (a : Acquire) (k : Resource) : Prop := a.first = k ∨ a.followOn = some k

/-- A request is an ACQUIRE that names a resource as its first or its follow-on (R84). -/
def requestNames (q : Request) (k : Resource) : Prop :=
  ∃ g m w f, q = .acquire g m w f ∧ (g.toNat = k.val ∨ ∃ b : Byte, f = some b ∧ b.toNat = k.val)

/-- The condition of check 4 of R84 for slot i, client c and tag t. -/
def duplicateRequest (i : SlotIx) (c : Client) (t : Byte) (a : Acquire) (s : State) : Prop :=
  (∃ k e p, seeksEver a k ∧ s.lease.hold? k = some e ∧ p ∈ e.clients ∧ p.1 = c) ∨
    ∃ j x, j ≠ i ∧ s.table.slot j = some x ∧ x.client = c ∧ (x.tag = t ∨ ∃ k, seeksEver a k ∧ requestNames x.request k)

/-- An ACQUIRE of a client with a tag stands in slot j (R100). -/
def acquireIn (c : Client) (t : Byte) (s : State) (j : SlotIx) : Prop :=
  ∃ x, s.table.slot j = some x ∧ x.request.kind = .acquire ∧ x.client = c ∧ x.tag = t

/-- A discard counter raised by 1; it saturates at 65,535 (R175). -/
def raised (n : Half) : Half := if n = 0xFFFF then 0xFFFF else n + 1

/-- The state with the hop-limit counter raised (R119, R175). -/
def hopCounted (s : State) : State := { s with ring := { s.ring with hopCount := raised s.ring.hopCount } }

/-- What a report of the Claim Engine makes of ACQUIRE fields: it is held; REFUSED raises the patience of a waiting request by 1 up to 15
(R93), and LOST_CIRCUIT the lost count by 1 within its 0 to 7 (R54, R77). -/
def heldReport (r : Report) (a : Acquire) : Acquire :=
  { a with
    report := some r
    patience := if r = .refused ∧ a.wait = true then min 15 (a.patience + 1) else a.patience
    lost := if r = .lostCircuit then min 7 (a.lost + 1) else a.lost }

/-- The queue takes a completion record: fewer than 14 of them, and fewer than 16 records (R106). -/
abbrev takesCompletion (t : RequestTable) : Prop := t.completions < 14 ∧ t.queue.length < 16

/-- A ROSTER notice is raised when a list of added or departed addresses is not empty (R129). -/
def rosterNotice (q : Byte) (new : List RosterEntry) (plus minus : List StationAddr) (s : State) : State :=
  if plus = [] ∧ minus = [] then s
  else s.raiseNotice (.roster q ((new.head?.map RosterEntry.address).getD s.station.address) new.length plus minus)

/-- The roll timer runs from 0 in ACTIVE (R114, R124). -/
def timerFromZero (s : State) : State :=
  if s.station.state = .active then { s with roll := { s.roll with timer := some 0 } } else s

/-- A valid character (R160). -/
abbrev validChar (c : LinkChar) : Prop := c ≠ .violation ∧ c ≠ .silence

/-- The character that arrives next: with none left to arrive, IDLE on a link that is UP and nothing on one that is DOWN (log 5). -/
def arriving (s : State) : LinkChar := s.rxLine.head?.getD (if s.ring.linkUp = true then .idle else .silence)

/-- An event of the part is due, by the rule that names it; the configured times in character times of 100 ns (R209). -/
def isDue (s : State) (c : Instr) : Prop :=
  (c = .transmitChoice ∧ (s.ring.transmitter = .gap 0 ∨
    (s.ring.transmitter = .idle ∧ (s.outbound ≠ [] ∨ s.ring.forwarding ≠ [])))) ∨
  (∃ a rest, s.ring.processing = a :: rest ∧ a.left = 0 ∧ c = receiptOf s.station.address a.bytes) ∨
  (∃ n f rest, s.ring.transmitter = .sendingOwn n ∧ s.outbound = f :: rest ∧ f.frame.length < n ∧ c = reportOf f.frame.body) ∨
  ((∃ n, s.ring.lossTimer = some n ∧ 200 ≤ n) ∧ c = .linkDown) ∨
  ((∃ n, s.ring.settleTimer = some n ∧ 1000 ≤ n) ∧ c = .linkUp) ∨
  (∃ cf e, s.station.config = some cf ∧ e ∈ s.claim.claims ∧ e.phase = .circulating ∧ cf.units.toNat * 100 ≤ e.timer ∧
    c = .circuitTimeout e.sequence) ∨
  (∃ cf k i, s.station.config = some cf ∧ i ∈ (s.lease.record k).intents ∧ 2 * (cf.units.toNat * 100) ≤ i.age ∧
    c = .intentExpiry k i.originator) ∨
  (∃ cf n, s.station.config = some cf ∧ s.roll.timer = some n ∧
    (cf.interval.toNat * 1000 + s.station.address.val * (cf.units.toNat * 10)) * 10 ≤ n ∧
    s.station.state = .active ∧ s.roll.outstanding = none ∧ c = .rollTimerExpiry) ∨
  (∃ cf o, s.station.config = some cf ∧ s.roll.outstanding = some o ∧ 3 * (cf.units.toNat * 100) ≤ o.age ∧
    ((o.phase = .circulating ∧ c = .rollLost) ∨ (o.phase = .abandoned ∧ c = .abandonedRollExpiry))) ∨
  (∃ cf o, s.station.config = some cf ∧ s.roll.retired = some o ∧ 3 * (cf.units.toNat * 100) ≤ o.age ∧ c = .retiredRollExpiry) ∨
  (s.probe.phase = .out ∧ 65535 ≤ s.probe.timer ∧ c = .probeTimeout) ∨
  (s.roll.held = true ∧ s.rosterWaits = false ∧ c = .heldOrigination) ∨
  (s.station.state = .leaving ∧ s.outbound = [] ∧ s.claim.claims = [] ∧ s.lease.holds = [] ∧ c = .endOfLeaving) ∨
  (s.table.posting ≠ [] ∧ s.table.completions < 14 ∧ s.table.queue.length < 16 ∧ c = .slotPosting)

/-- The whole of a station's invariant. -/
def Inv (s : State) : Prop :=
  s.replicaLawful ∧ s.holdsLawful ∧ s.outboundLawful ∧ s.queueWithinLimits ∧ s.readPositionWithin ∧ s.forwardingWithinLimits ∧
    s.table.numbered ∧ s.host.assembly.within = true ∧ s.leavingDone = false

end Sys2Proof.Statement

open Sys2Proof Sys2Proof.Machine Sys2Proof.Statement

/-! ### The queue of commands and the passing of time -/

/-- A step takes the command at the front and runs it on the state with the queue's rest. The queue is the model's (log 1). -/
def Obligations.StepRunsFrontCommand : Prop :=
  ∀ (c : Instr) (rest : List Instr) (s : State), s.pending = c :: rest →
    step s = exec c { s with pending := rest }

/-- With no command waiting: a step in reset keeps the state, but for the count of tPOR, whose end queues the release (R211, log 30); a
due event is queued; or one character time passes, which only happens when nothing is due. What an idle step is, and which of several due
events goes first, is the model's choice (log 2, log 7). A character time is 100 ns, the unit of every timer, each running from its own
start; on the tenth the microsecond counter rises by 1 and wraps at 65,536 (R138), and the probe timer of an OUT probe rises (log 19).
Circuit timers run while CIRCULATING, intent ages and the retired roll's age always, the outstanding roll's age but while QUEUED, the roll
timer unless stopped; that a timer stands still outside its phase is log 38. The transmitter sends a frame as START, its bytes in order
and END, then 4 IDLE. -/
def Obligations.IdleStepPassesTime : Prop :=
  (∀ s : State, s.pending = [] →
      (s.supplyLow = false → s.resetLow = true → step s = .next s) ∧
      (s.supplyLow = true → s.porTimer < 100000 → step s = .next { s with porTimer := s.porTimer + 1 }) ∧
      (s.supplyLow = true → 100000 ≤ s.porTimer →
        step s = .next { s with pending := [.resetReleased .powerOnEnds s.straps] }) ∧
      (s.inReset = false → (∀ c, ¬ isDue s c) → step s = .next s.characterTime) ∧
      (s.inReset = false → (∃ c, isDue s c) → ∃ c, isDue s c ∧ step s = .next { s with pending := [c] })) ∧
  (∀ s : State, s.station.subMicro < 10 →
      (s.station.subMicro + 1 < 10 → s.characterTime.probe = s.probe ∧
        s.characterTime.station = { s.station with subMicro := s.station.subMicro + 1 }) ∧
      (s.station.subMicro + 1 = 10 →
        s.characterTime.station = { s.station with subMicro := 0, micros := s.station.micros + 1 } ∧
        (s.probe.phase = .out → s.characterTime.probe = { s.probe with timer := s.probe.timer + 1 }) ∧
        (s.probe.phase ≠ .out → s.characterTime.probe = s.probe))) ∧
  (∀ s : State,
      let t := s.characterTime
      t.claim = { s.claim with
        claims := s.claim.claims.map (fun e => if e.phase = .circulating then { e with timer := e.timer + 1 } else e) } ∧
      (∀ k, t.lease.record k = { s.lease.record k with
        intents := (s.lease.record k).intents.map (fun i => { i with age := i.age + 1 }) }) ∧
      t.lease.holds = s.lease.holds ∧
      t.roll = { s.roll with
        outstanding := s.roll.outstanding.map (fun o => if o.phase = .queued then o else { o with age := o.age + 1 })
        retired := s.roll.retired.map (fun o => { o with age := o.age + 1 })
        timer := s.roll.timer.map (fun n => n + 1) } ∧
      t.table = s.table ∧ t.host = s.host ∧ t.outbound = s.outbound ∧ t.rxLine = s.rxLine.tail ∧ t.pending = s.pending) ∧
  (∀ s : State,
      let r := s.characterTime.ring
      let sends (c : LinkChar) (x : Transmitter) := r.txLine = c ∧ r.transmitter = x ∧ r.forwarding = s.ring.forwarding
      (s.ring.transmitter = .silent → sends .silence .silent) ∧ (s.ring.transmitter = .idle → sends .idle .idle) ∧
      (∀ n, s.ring.transmitter = .gap n → sends .idle (.gap (n - 1))) ∧
      (s.ring.transmitter = .endDue → sends .endChar (.gap 4)) ∧
      (∀ f rest, s.outbound = f :: rest →
        (s.ring.transmitter = .sendingOwn 0 → sends .start (.sendingOwn 1)) ∧
        (∀ n, s.ring.transmitter = .sendingOwn (n + 1) → sends (.data (f.frame.bytes.getD n 0)) (.sendingOwn (n + 2)))) ∧
      (∀ f rest, s.ring.forwarding = f :: rest →
        (s.ring.transmitter = .sendingForwarded 0 → sends .start (.sendingForwarded 1)) ∧
        (∀ n, s.ring.transmitter = .sendingForwarded (n + 1) → n + 1 < f.length →
          sends (.data (f.bytes.getD n 0)) (.sendingForwarded (n + 2))) ∧
        (∀ n, s.ring.transmitter = .sendingForwarded (n + 1) → n + 1 = f.length →
          r.txLine = .data (f.bytes.getD n 0) ∧ r.transmitter = .endDue ∧ r.forwarding = rest)))

/-! ### Power and reset -/

/-- The state right after reset has every block at the initial value its chapter gives. The empty queue of commands is the model's
(log 1), and so are the straps, which State.reset reads as 0 (log 16). -/
def Obligations.ResetHoldsInitialValues : Prop :=
  State.reset.station.state = .unconfigured ∧ State.reset.station.config = none ∧ State.reset.station.micros = 0 ∧
  (∀ k, State.reset.lease.record k = { mode := none, holders := [], intents := [], note := .unknown }) ∧
  State.reset.lease.holds = [] ∧ State.reset.claim = { claims := [], sequence := 0 } ∧
  (∀ i, State.reset.table.slot i = none) ∧ (∀ c, State.reset.table.fault c = false) ∧ State.reset.table.queue = [] ∧
  State.reset.roll = { outstanding := none, retired := none, timer := none, sequence := 0, roster := [], held := false } ∧
  State.reset.ring.linkUp = false ∧ State.reset.ring.receiver = .hunting ∧ State.reset.ring.forwarding = [] ∧
  State.reset.ring.transmitter = .silent ∧ State.reset.ring.relief = 0 ∧ State.reset.ring.formatCount = 0 ∧
  State.reset.ring.hopCount = 0 ∧ State.reset.ring.overflowCount = 0 ∧ State.reset.outbound = [] ∧
  State.reset.probe.phase = .idle ∧ State.reset.probe.sequence = 0 ∧ State.reset.probe.time = 0 ∧
  State.reset.probe.done = false ∧ State.reset.probe.busy = false ∧ State.reset.host.assembly = .empty ∧
  State.reset.host.readPos = 0 ∧ State.reset.host.refused = false ∧ State.reset.host.noticeLost = false ∧
  State.reset.host.recordInt = false ∧ State.reset.host.noticeLostInt = false ∧ State.reset.host.hiLatch = 0 ∧
  State.reset.bypassAsserted = true ∧ State.reset.intAsserted = false ∧ State.reset.pending = [] ∧
  State.reset.station.address = 0 ∧ State.reset.inReset = false

/-- POWER_FAIL and a RESET pulse of tRST hold every block at its initial values with BYPASS asserted and INT# released; a shorter
pulse does nothing, and neither does its end. That the address is kept while held is the model's choice (log 18); the pulse operand,
and that POWER_FAIL is a dip after which tPOR is counted anew, is log 30. While reset is held, a port read presents 0 and every other
command changes nothing. Power-on reset ends when tPOR has been counted, and not before; the pin's assertion ends at its release. The
end of the last cause of reset latches the address and leaves every block at its initial values, UNCONFIGURED, with BYPASS asserted;
the end of one of two causes latches the address too and leaves the other holding, and an idle step then ends power-on reset with the
straps last sampled. -/
def Obligations.ResetHoldsAndReleasesThePart : Prop :=
  (∀ (s : State) (lowNs : Nat),
      exec .powerFail s = .next { State.initial s.station.address with
        supplyLow := true, resetLow := s.resetLow, porTimer := 0, straps := s.straps, rxLine := s.rxLine, pending := s.pending } ∧
      (1000 ≤ lowNs → exec (.resetAsserted lowNs) s = .next { State.initial s.station.address with
        supplyLow := s.supplyLow, resetLow := true, porTimer := s.porTimer, straps := s.straps, rxLine := s.rxLine,
        pending := s.pending }) ∧
      (lowNs < 1000 → exec (.resetAsserted lowNs) s = .next s) ∧
      (∀ t : State, t.inReset = true → t.bypassAsserted = true ∧ t.intAsserted = false ∧ ∀ a, portRead a t = 0)) ∧
  (∀ (c : Instr) (s : State), s.inReset = true → isPower c = false →
      (isRead c = false → exec c s = .next s) ∧
      (isRead c = true → exec c s = .next { s with host := { s.host with dataOut := 0 } })) ∧
  (∀ (s : State) (straps : StationAddr),
      let released : State := { State.initial straps with rxLine := s.rxLine, pending := s.pending }
      let sampled : State := { s with straps := straps, station := { s.station with address := straps } }
      let ended := s.supplyLow = true ∧ 100000 ≤ s.porTimer
      (ended → s.resetLow = false → exec (.resetReleased .powerOnEnds straps) s = .next released) ∧
      (ended → s.resetLow = true →
        exec (.resetReleased .powerOnEnds straps) s = .next { sampled with supplyLow := false, porTimer := 0 }) ∧
      (¬ ended → exec (.resetReleased .powerOnEnds straps) s = .next s) ∧
      (s.resetLow = true → s.supplyLow = false → exec (.resetReleased .pinReleased straps) s = .next released) ∧
      (s.resetLow = true → s.supplyLow = true →
        exec (.resetReleased .pinReleased straps) s = .next { sampled with resetLow := false }) ∧
      (∀ t : State, s.resetLow = true → s.supplyLow = true → s.pending = [] →
        exec (.resetReleased .pinReleased straps) s = .next t → 100000 ≤ s.porTimer →
        step t = .next { t with pending := [.resetReleased .powerOnEnds straps] } ∧
          step { t with pending := [.resetReleased .powerOnEnds straps] } = .next released) ∧
      (s.resetLow = false → exec (.resetReleased .pinReleased straps) s = .next s) ∧
      released.bypassAsserted = true ∧ released.station.address = straps ∧ released.straps = straps ∧
      released.station.state = .unconfigured ∧ released.station.micros = 0)

/-! ### Writing a request -/

/-- A byte written to REQUEST moves the assembly buffer by the table of R185 and changes nothing else, a declared length of 2 or
less being refused at once. A record written byte by byte into an EMPTY buffer commits at its last byte, with the effect of the
request command that carries it whole. What the request commands carry is the model's choice (log 23). A record of a declared length
above 2 whose kind byte names no request kind sets REFUSED at its last byte and is dropped (R187). -/
def Obligations.WrittenBytesAssembleARecord : Prop :=
  (∀ (b : Byte) (y : Strobe) (s : State), s.inReset = false → taken y →
      (s.host.assembly = .empty →
        exec (.requestAssemblyByte b y) s = .next { s with host := { s.host with assembly := .kind b } }) ∧
      (∀ k, s.host.assembly = .kind k → 2 < b.toNat →
        exec (.requestAssemblyByte b y) s = .next { s with host := { s.host with assembly := .counting [k, b] b 2 } }) ∧
      (∀ k, s.host.assembly = .kind k → b.toNat ≤ 2 → exec (.requestAssemblyByte b y) s = .next (dropped s)) ∧
      (∀ stored declared count, s.host.assembly = .counting stored declared count → count + 1 ≠ declared.toNat →
        exec (.requestAssemblyByte b y) s = .next { s with host := { s.host with
          assembly := .counting (if count < 40 then stored ++ [b] else stored) declared (count + 1) } }) ∧
      (∀ k stored declared count, s.host.assembly = .counting (k :: stored) declared count → count + 1 = declared.toNat →
        k.toNat = 0 ∨ 9 < k.toNat → exec (.requestAssemblyByte b y) s = .next (dropped s))) ∧
  (∀ (k : RequestKind) (r : HostRecord) (s : State), s.inReset = false → s.host.assembly = .empty → r.wf = true →
      writeBytes (k.code :: r.declared :: r.client :: r.tag :: r.body) s = exec (request k r) s)

/-- A record that is malformed sets REFUSED and is dropped: it reaches no block. The form is good exactly when the declared length
is allowed for the kind and agrees with the bytes and the note length, and the client is at most 7. A well-formed record that finds
every slot occupied sets REFUSED and is dropped, a RESTART outside UNCONFIGURED apart. -/
def Obligations.UnfitRecordIsRefused : Prop :=
  (∀ (k : RequestKind) (r : HostRecord) (s : State),
      (s.inReset = false → formOk k r = false → exec (request k r) s = .next (dropped s)) ∧
      (formOk k r = true ↔ r.declared.toNat = 4 + r.body.length ∧ r.client.toNat ≤ 7 ∧
        (match k with
          | .configure => r.declared.toNat = 8
          | .acquire => r.declared.toNat = 7 ∨ r.declared.toNat = 8
          | .release => (r.field 1).toNat ≤ 32 ∧ r.declared.toNat = 6 + (r.field 1).toNat
          | .cancel => r.declared.toNat = 5
          | .query => r.declared.toNat = 5
          | .stats => r.declared.toNat = 4
          | .clearFault => r.declared.toNat = 4
          | .leave => r.declared.toNat = 4
          | .restart => r.declared.toNat = 4))) ∧
  (∀ (k : RequestKind) (r : HostRecord) (s : State), s.inReset = false → formOk k r = true →
      (∀ i, s.table.slot i ≠ none) → (k = .restart → s.station.state = .unconfigured) →
      exec (request k r) s = .next (dropped s))

/-- The station state refuses a request by R80: it completes NOT_READY at once, or ABORTED for a RELEASE in LEAVING. -/
def Obligations.StationStateRefusesRequest : Prop :=
  ∀ (i : SlotIx) (k : RequestKind) (r : HostRecord) (s : State), finds i k r s →
    (notReadyIn k s.station.state → exec (request k r) s = .next ((accepted i k r s).finish i .notReady .none)) ∧
    (k = .release → s.station.state = .leaving →
      exec (request k r) s = .next ((accepted i k r s).finish i .aborted .none))

/-- A completion made ready enters the queue at its tail and frees its slot when the queue holds fewer than 14 completion records
and fewer than 16 records and no slot is in POSTING; else the slot goes to POSTING, last in posting order, and keeps its record.
SLOT_POSTING posts the record of the earliest-ready slot in POSTING when the queue admits one, and frees the slot; else it changes
nothing. When a record has left the queue (postWaiting 8, which the read of COMPLETION runs) the slots in POSTING post one after another,
each as SLOT_POSTING has it, until the queue admits none or no slot is left in POSTING. That a slot in POSTING keeps the report it held,
which nothing reads there, is the model's choice (log 36). -/
def Obligations.CompletionsArePostedInOrder : Prop :=
  (∀ (t : RequestTable) (i : SlotIx) (sl : Slot) (st : Status) (c : Content), t.slot i = some sl →
      (t.completions < 14 ∧ t.queue.length < 16 ∧ t.posting = [] →
        (t.finish i st c).queue = t.queue ++ [.completion (sl.record st c)] ∧ (t.finish i st c).slot i = none ∧
        (t.finish i st c).posting = [] ∧ (t.finish i st c).faults = t.faults ∧
        ∀ j, j ≠ i → (t.finish i st c).slot j =
          (t.slot j).map (fun x => if sl.accept < x.accept then { x with accept := x.accept - 1 } else x)) ∧
      (¬ (t.completions < 14 ∧ t.queue.length < 16 ∧ t.posting = []) →
        (t.finish i st c).queue = t.queue ∧ (t.finish i st c).posting = t.posting ++ [i] ∧
        (t.finish i st c).faults = t.faults ∧
        (t.finish i st c).slot i = some { sl with phase := .posting, completion := some (sl.record st c) } ∧
        ∀ j, j ≠ i → (t.finish i st c).slot j = t.slot j)) ∧
  (∀ (s : State) (i : SlotIx) (rest : List SlotIx) (sl : Slot) (c : Completion), s.inReset = false →
      s.table.posting = i :: rest → s.table.slot i = some sl → sl.completion = some c →
      (takesCompletion s.table →
        exec .slotPosting s = .next { s with table := { s.table.freeSlot i with
          queue := s.table.queue ++ [.completion c], posting := rest } }) ∧
      (¬ takesCompletion s.table → exec .slotPosting s = .next s)) ∧
  (∀ (n : Nat) (t : RequestTable),
      (t.posting = [] ∨ ¬ takesCompletion t → RequestTable.postWaiting n t = t) ∧
      (∀ i rest sl c, t.posting = i :: rest → t.slot i = some sl → sl.completion = some c → takesCompletion t →
        RequestTable.postWaiting (n + 1) t =
          RequestTable.postWaiting n { t.freeSlot i with queue := t.queue ++ [.completion c], posting := rest }) ∧
      (t.posting.length ≤ 8 → (RequestTable.postWaiting 8 t).posting = [] ∨ ¬ takesCompletion (RequestTable.postWaiting 8 t)))

/-- A notice enters the completion queue when it holds fewer than 16 records; else it is lost and NOTICE_LOST is set. -/
def Obligations.NoticeEntersOrIsLost : Prop :=
  ∀ (n : Notice) (s : State),
    (s.table.queue.length < 16 →
      s.raiseNotice n = { s with table := { s.table with queue := s.table.queue ++ [.notice n] } }) ∧
    (16 ≤ s.table.queue.length → s.raiseNotice n = { s with host := { s.host with noticeLost := true } })

/-! ### The nine requests -/

/-- A CONFIGURE in UNCONFIGURED with its fields in range stores them, enters JOINING, releases BYPASS and raises CONFIGURED after
its OK; out of range it completes BAD_FIELD and the station stays UNCONFIGURED. -/
def Obligations.ConfigureJoinsTheRing : Prop :=
  ∀ (i : SlotIx) (r : HostRecord) (s : State) (interval retry : Byte) (units : Half),
    finds i .configure r s → s.station.state = .unconfigured →
    requestOf .configure r = .configure interval units retry →
    (1 ≤ interval.toNat ∧ 1 ≤ units.toNat ∧ units.toNat ≤ 1000 ∧ 1 ≤ retry.toNat ∧ retry.toNat ≤ 7 →
      ∃ t, exec (.configure r) s = .next t ∧
        t.station = { s.station with state := .joining, config := some { interval := interval, units := units, retry := retry } } ∧
        t.ring = { s.ring with transmitter := .idle } ∧ t.bypassAsserted = false ∧
        t.table = (((accepted i .configure r s).finish i .ok .none).raiseNotice
          (.state .configured .unconfigured .joining)).table ∧
        t.host = (((accepted i .configure r s).finish i .ok .none).raiseNotice
          (.state .configured .unconfigured .joining)).host ∧
        t.lease = s.lease ∧ t.claim = s.claim ∧ t.roll = s.roll ∧ t.outbound = s.outbound ∧ t.probe = s.probe) ∧
    (¬ (1 ≤ interval.toNat ∧ 1 ≤ units.toNat ∧ units.toNat ≤ 1000 ∧ 1 ≤ retry.toNat ∧ retry.toNat ≤ 7) →
      exec (.configure r) s = .next ((accepted i .configure r s).finish i .badField .none))

/-- An ACQUIRE that fails a check of R84 completes at once by the first check that fails, and only DUPLICATE sets the client's fault
flag: another occupied slot holds a request of the client with its tag, or an ACQUIRE of the client that names the first or the
follow-on resource, or the client is among the clients of a local hold of one of them. -/
def Obligations.AcquireIsChecked : Prop :=
  ∀ (i : SlotIx) (r : HostRecord) (s : State), finds i .acquire r s → proceeds s.station.state →
    let u := accepted i .acquire r s
    (acquireOf r = none ↔ 64 ≤ (r.field 0).toNat ∨ (r.field 1 ≠ 1 ∧ r.field 1 ≠ 2) ∨ (r.field 2 ≠ 0 ∧ r.field 2 ≠ 1) ∨
      (r.declared.toNat = 8 ∧ 64 ≤ (r.field 3).toNat)) ∧
    (acquireOf r = none → exec (.acquire r) s = .next (u.finish i .badField .none)) ∧
    ∀ a, acquireOf r = some a →
      ((∃ f, a.followOn = some f ∧ f ≤ a.first) → exec (.acquire r) s = .next (u.finish i .badOrder .none)) ∧
      ((∀ f, a.followOn = some f → a.first < f) → s.table.fault r.clientNo = true →
        exec (.acquire r) s = .next (u.finish i .clientFaulted .none)) ∧
      ((∀ f, a.followOn = some f → a.first < f) → s.table.fault r.clientNo = false →
        duplicateRequest i r.clientNo r.tag a s →
        exec (.acquire r) s =
          .next ((u.mapTable (RequestTable.setFault r.clientNo true)).finish i .duplicate .none))

/-- The table of R87: each outcome of an examination holds exactly when its condition is the first that does. An earlier slot that is
in WAITING, CLAIMING or SETTLING stands for its current resource (R86); the replica shows a conflict by another holder or by an intent
where one of the two modes is EXCLUSIVE (R25). -/
def Obligations.ArbitrationFollowsItsTable : Prop :=
  ∀ (s : State) (i : SlotIx) (a : Acquire) (k : Resource), seeks a k →
    let joins := (∃ e, s.lease.hold? k = some e ∧ e.phase = .held ∧ e.mode = .shared) ∧ a.mode = .shared ∧
      ¬ standsEarlier i k s
    let waits := (∃ e, s.lease.hold? k = some e ∧ (e.phase = .releasing ∨ e.mode = .exclusive ∨ a.mode = .exclusive)) ∨
      standsEarlier i k s ∨ (∃ e, s.claim.claimOn k = some e) ∨ conflictShown k a.mode s
    let full := 16 ≤ s.lease.holds.length + s.claim.claims.length
    let claims := s.station.state = .active ∧ s.claim.claims.length < 4
    (joins → s.arbitrate i a = .join) ∧ (¬ joins ∧ waits → s.arbitrate i a = .wait) ∧
    (¬ joins ∧ ¬ waits ∧ full → s.arbitrate i a = .tooMany) ∧
    (¬ joins ∧ ¬ waits ∧ ¬ full ∧ claims → s.arbitrate i a = .claim) ∧
    (¬ joins ∧ ¬ waits ∧ ¬ full ∧ ¬ claims → s.arbitrate i a = .heldBack)

/-- What an offer and the two other kinds of pass name: exactly the ACQUIRE slots in WAITING concerned, each kind in acceptance order. Where
one slot is named for one resource, it is examined if it waits for it still, and that is all when its examination causes no further one.
No slot is examined in LEAVING or HALTED. The order among passes is the model's choice (log
10). -/
def Obligations.ReexaminationFollowsAcceptance : Prop :=
  ∀ (s : State) (k : Resource) (i : SlotIx),
    (∀ p, p ∈ s.table.offer k ↔ p.2 = some k ∧ ∃ sl, s.table.slot p.1 = some sl ∧ sl.waitsFor = some k) ∧
    (∀ p, p ∈ s.table.everyWaiting ↔ p.2 = none ∧ ∃ sl, s.table.slot p.1 = some sl ∧ sl.waitsFor ≠ none) ∧
    (∀ sl, s.table.slot i = some sl → ∀ p, p ∈ s.table.behind i ↔ ∃ r x, sl.standsFor = some r ∧ p.2 = some r ∧
      s.table.slot p.1 = some x ∧ x.waitsFor = some r ∧ sl.accept < x.accept) ∧
    (s.table.order.Pairwise (fun a b => ∀ x y, s.table.slot a = some x → s.table.slot b = some y → x.accept ≤ y.accept)) ∧
    (s.table.everyWaiting.map Prod.fst).Sublist s.table.order ∧ ((s.table.offer k).map Prod.fst).Sublist s.table.order ∧
    ((s.table.behind i).map Prod.fst).Sublist s.table.order ∧
    (∀ w, s.station.state = .leaving ∨ s.station.state = .halted → s.reexamine w = s) ∧
    (s.station.state = .joining ∨ s.station.state = .active ∨ s.station.state = .broken ∨ s.station.state = .resync →
      ∀ sl, s.table.slot i = some sl →
        (sl.waitsFor ≠ some k → s.reexamine [(i, some k)] = s) ∧
        (sl.waitsFor = some k → (s.examine i).2 = [] → s.reexamine [(i, some k)] = (s.examine i).1))

/-- An ACQUIRE past its checks is examined at once: it joins a local SHARED hold, waits or completes BUSY, completes TOO_MANY, has a
claim issued, or is held back. An examination does the same to any ACQUIRE slot in WAITING, in either stage, by its verdict: a join adds
the client to the hold and its group, with the note as it stands, to the slot, which completes OK with its groups or, in stage 1 with a
follow-on, passes to stage 2 and is examined again at once; BUSY and TOO_MANY end it, in stage 2 after the give-back; a claim is issued; or
the slot waits. The issue of a claim raises the counter by 1, adds a QUEUED entry at the tail of the list, puts the
CLAIM frame at the tail of the Outbound Queue and the slot in CLAIMING, as one change, and nothing else but the choice that an
idle transmitter makes at its end (log 33). The order of passes after a join with a follow-on, the slots behind in the first resource
before what the examination of stage 2 causes, is the model's choice (log 10). -/
def Obligations.AcquireIsExaminedAtOnce : Prop :=
  (∀ (i : SlotIx) (r : HostRecord) (s : State) (a : Acquire), finds i .acquire r s → proceeds s.station.state →
      acquireOf r = some a → (∀ f, a.followOn = some f → a.first < f) → s.table.fault r.clientNo = false →
      ¬ duplicateRequest i r.clientNo r.tag a s →
      let u := started i r a s
      let joined := (u.mapLease (fun l => l.modifyHold a.first (HoldEntry.addClient (r.clientNo, r.tag)))).mapTable (fun t =>
        t.modifyAcquire i (fun x =>
          { x with groups := [{ resource := a.first, mode := .shared, note := (s.lease.record a.first).note }] }))
      let second := joined.mapTable (fun t => t.modifyAcquire i (fun x => { x with stage := .second }))
      (u.arbitrate i a = .join → a.followOn = none → exec (.acquire r) s = atOnce s (reexamined (joined.succeedAcquire i))) ∧
      (u.arbitrate i a = .join → a.followOn ≠ none → exec (.acquire r) s = atOnce s (reexamined
        ((second.examineOnce i).1, joined.table.behind i ++ (second.examineOnce i).2.1))) ∧
      (u.arbitrate i a = .wait → a.wait = true → exec (.acquire r) s = .next u) ∧
      (u.arbitrate i a = .wait → a.wait = false →
        exec (.acquire r) s = atOnce s (reexamined (u.finish i .busy .none, u.table.behind i))) ∧
      (u.arbitrate i a = .tooMany →
        exec (.acquire r) s = atOnce s (reexamined (u.finish i .tooMany .none, u.table.behind i))) ∧
      (u.arbitrate i a = .claim → exec (.acquire r) s = atOnce s (u.issueClaim i a)) ∧
      (u.arbitrate i a = .heldBack → exec (.acquire r) s = .next u)) ∧
  (∀ (i : SlotIx) (s : State) (sl : Slot) (a : Acquire), s.table.slot i = some sl → sl.phase = .waiting → sl.acquire = some a →
      let k := a.current
      let gained : Acquire := { a with groups := a.groups ++ [{ resource := k, mode := .shared, note := (s.lease.record k).note }] }
      let joined : State := { s with
        lease := s.lease.modifyHold k (HoldEntry.addClient (sl.client, sl.tag))
        table := s.table.setSlot i (some { sl with acquire := some gained }) }
      let second : State := { joined with table := s.table.setSlot i (some { sl with
        acquire := some { gained with stage := .second, patience := 0, lost := 0, report := none } }) }
      let chains := a.stage = .first ∧ a.followOn ≠ none
      seeks a k ∧
      (s.arbitrate i a = .join → ¬ chains →
        s.examine i = (joined.finish i .ok (.groups gained.groups), s.table.behind i)) ∧
      (s.arbitrate i a = .join → chains →
        s.examineOnce i = (second, s.table.behind i, true) ∧
        s.examine i = ((second.examineOnce i).1, s.table.behind i ++ (second.examineOnce i).2.1)) ∧
      (s.arbitrate i a = .wait → a.wait = true → s.examine i = (s, [])) ∧
      (s.arbitrate i a = .wait → a.wait = false → s.examine i = s.failAcquire i .busy) ∧
      (s.arbitrate i a = .tooMany → s.examine i = s.failAcquire i .tooMany) ∧
      (s.arbitrate i a = .claim → s.examine i = (s.issueClaim i a, [])) ∧
      (s.arbitrate i a = .heldBack → s.examine i = (s, [])) ∧
      (¬ (s.arbitrate i a = .join ∧ chains) → s.examineOnce i = ((s.examine i).1, (s.examine i).2, false))) ∧
  (∀ (i : SlotIx) (a : Acquire) (s : State),
      s.issueClaim i a = { s.enqueue (.claim
          { resource := a.current, mode := a.mode, sequence := s.claim.sequence + 1
            patience := BitVec.ofNat 8 a.patience, objection := none }) (some i) with
        claim := { sequence := s.claim.sequence + 1, claims := s.claim.claims ++
          [{ resource := a.current, mode := a.mode, sequence := s.claim.sequence + 1, patience := a.patience,
             yielding := false, cancel := false, slot := i, phase := .queued, timer := 0 }] }
        table := s.table.modifySlot i (fun sl => { sl with phase := .claiming }) })

/-- A RELEASE that proceeds is taken by the first row of R70 that holds. A frame that joins the Outbound Queue is chosen at once by an
idle transmitter (log 33). -/
def Obligations.ReleaseIsTaken : Prop :=
  ∀ (i : SlotIx) (r : HostRecord) (s : State) (resource : Byte) (note : List Byte),
    finds i .release r s → proceeds s.station.state → requestOf .release r = .release resource note →
    let u := accepted i .release r s
    let c := r.clientNo
    let found (e : HoldEntry) := ∃ k : Resource, resource.toNat = k.val ∧ s.lease.heldEntry? k = some e ∧ e.hasClient c = true
    let noted : Status := if note = [] then .ok else .noteDropped
    (s.table.fault c = true → exec (.release r) s = .next (u.finish i .clientFaulted .none)) ∧
    (s.table.fault c = false → (∀ e, ¬ found e) →
      exec (.release r) s = .next ((u.mapTable (RequestTable.setFault c true)).finish i .notHeld .none)) ∧
    (∀ e, s.table.fault c = false → found e → (e.dropClient c).clients ≠ [] →
      exec (.release r) s =
        .next ((u.mapLease (fun l => l.modifyHold e.resource (HoldEntry.dropClient c))).finish i noted .none)) ∧
    (∀ e, s.table.fault c = false → found e → (e.dropClient c).clients = [] →
      let t : State := { u.enqueue (.release
          { resource := e.resource, mode := e.mode, note := if e.mode = .exclusive then note else [] }) (some i) with
        lease := s.lease.ownRelease s.station.address e.resource e.mode note
        table := u.table.modifySlot i (fun sl => { sl with
          phase := .releasing
          completion := some { client := c, tag := r.tag, kind := .release, stage := .first, content := .none,
                               status := if e.mode = .exclusive then .ok else noted } }) }
      exec (.release r) s = atOnce s (t.reexamine (t.table.offer e.resource)))

/-- The station-level release of a hold: the entry goes to RELEASING with no clients, this station leaves the holders, an EXCLUSIVE
release sets the note, and every other entry and record stays (R15, R64). An own grant adds a HELD entry with its one client at the
tail of the local hold list and makes this station a holder, and changes no other entry and no other record. A client joins an entry
with its tag or leaves it, and nothing else of the entry changes; that the clients stand in order is log 28. What the changes of a
record do: an intent recorded replaces its originator's, where the intents stand by originator (log 28), keeps the others and takes
its originator from the holders; a grant makes the station a holder, alone when EXCLUSIVE or when an EXCLUSIVE holder is dropped; a
release takes the releaser from the holders; the mode goes with the last holder. -/
def Obligations.LeaseChangesKeepTheRest : Prop :=
  (∀ (self : StationAddr) (k : Resource) (m : Mode) (note : List Byte) (l : LeaseTable),
      let t := l.ownRelease self k m note
      t.holds = l.holds.map (fun e => if e.resource = k then { e with clients := [], phase := .releasing } else e) ∧
      (∀ j, j ≠ k → t.record j = l.record j) ∧
      (∀ y, y ∈ (t.record k).holders ↔ y ∈ (l.record k).holders ∧ y ≠ self) ∧
      (t.record k).intents = (l.record k).intents ∧
      ((t.record k).holders = [] → (t.record k).mode = none) ∧
      ((t.record k).holders ≠ [] → (t.record k).mode = (l.record k).mode) ∧
      (m = .shared → (t.record k).note = (l.record k).note) ∧
      (m = .exclusive → (t.record k).note = if note = [] then .absent else .present note)) ∧
  (∀ (e : HoldEntry) (p : Client × Byte) (c : Client),
      let joined := e.addClient p
      e.dropClient c = { e with clients := e.clients.filter (fun q => decide (q.1 ≠ c)) } ∧
      (e.hasClient c = true ↔ ∃ t, (c, t) ∈ e.clients) ∧
      joined = { e with clients := joined.clients } ∧
      ((e.clients.map Prod.fst).Pairwise (· < ·) → (joined.clients.map Prod.fst).Pairwise (· < ·) ∧
        ∀ q, q ∈ joined.clients ↔ q = p ∨ (q ∈ e.clients ∧ q.1 ≠ p.1))) ∧
  (∀ (k : Resource) (f : HoldEntry → HoldEntry) (l : LeaseTable),
      (l.modifyHold k f).holds = l.holds.map (fun e => if e.resource = k then f e else e) ∧
      (∀ j, (l.modifyHold k f).record j = l.record j) ∧
      ∀ e, l.heldEntry? k = some e → e ∈ l.holds ∧ e.resource = k ∧ e.phase = .held) ∧
  (∀ (self : StationAddr) (k : Resource) (m : Mode) (p : Client × Byte) (l : LeaseTable),
      (l.ownGrant self k m p).holds = l.holds ++ [{ resource := k, mode := m, clients := [p], phase := .held }] ∧
      (l.ownGrant self k m p).record k = (l.record k).grant self m ∧
      ∀ j, j ≠ k → (l.ownGrant self k m p).record j = l.record j) ∧
  (∀ (r : ResourceRecord) (x : StationAddr) (m : Mode) (q : Byte) (note : List Byte),
      let claimed := r.recordIntent { originator := x, mode := m, sequence := q, age := 0 }
      let granted := r.grant x m
      let released := r.release x m note
      let modeOf (t : ResourceRecord) := (t.holders = [] → t.mode = none) ∧ (t.holders ≠ [] → t.mode = r.mode)
      ((∀ y, y ∈ claimed.holders ↔ y ∈ r.holders ∧ y ≠ x) ∧ claimed.note = r.note ∧ modeOf claimed ∧
        { originator := x, mode := m, sequence := q, age := 0 } ∈ claimed.intents ∧
        ((r.intents.map Intent.originator).Pairwise (· < ·) → (claimed.intents.map Intent.originator).Pairwise (· < ·) ∧
          ∀ j, j ∈ claimed.intents ↔ j = { originator := x, mode := m, sequence := q, age := 0 } ∨
            (j ∈ r.intents ∧ j.originator ≠ x))) ∧
      (granted.mode = some m ∧ granted.note = r.note ∧ (m = .exclusive → granted.holders = [x]) ∧
        (m = .shared → ∀ y, y ∈ granted.holders ↔ y = x ∨ (r.mode ≠ some .exclusive ∧ y ∈ r.holders)) ∧
        granted.intents = r.intents.filter (fun i => decide (i.originator ≠ x))) ∧
      ((∀ y, y ∈ released.holders ↔ y ∈ r.holders ∧ y ≠ x) ∧ released.intents = r.intents ∧ modeOf released ∧
        (m = .shared → released.note = r.note) ∧
        (m = .exclusive → released.note = if note = [] then .absent else .present note)))

/-- A CANCEL that proceeds is taken by the table of R100. It has no target exactly when no occupied slot holds an ACQUIRE of the
client with the tag; which of several is the earliest accepted is the model's choice (log 13). The CANCEL's own OK is made ready
before the slots behind the target are examined: the place of the examinations among the parts of the change is the model's choice
(log 10). -/
def Obligations.CancelActsOnItsTarget : Prop :=
  ∀ (i : SlotIx) (r : HostRecord) (s : State), finds i .cancel r s →
    proceeds s.station.state ∨ s.station.state = .leaving →
    let u := accepted i .cancel r s
    let target := u.table.cancelTarget r.clientNo (r.field 0)
    let isTarget := acquireIn r.clientNo (r.field 0) s
    (target = none ↔ ∀ j, ¬ isTarget j) ∧
    (target = none → exec (.cancel r) s = .next (u.finish i .notFound .none)) ∧
    (∀ j x, target = some j → u.table.slot j = some x →
      isTarget j ∧ (∀ k y, isTarget k → s.table.slot k = some y → x.accept ≤ y.accept) ∧
      (∀ a, x.phase = .waiting → x.acquire = some a → a.stage = .first →
        exec (.cancel r) s =
          atOnce s (((u.finish j .cancelled .none).finish i .ok .none).reexamine (u.table.behind j))) ∧
      (∀ a, x.phase = .waiting → x.acquire = some a → a.stage = .second →
        exec (.cancel r) s = atOnce s (((u.giveBack j .cancelled).1.finish i .ok .none).reexamine (u.giveBack j .cancelled).2)) ∧
      (x.phase = .claiming →
        exec (.cancel r) s = .next (State.finish i .ok .none { u with claim := { s.claim with
          claims := s.claim.claims.map (fun e => if e.slot = j then { e with cancel := true } else e) } })) ∧
      (x.phase = .settling ∨ x.phase = .releasing ∨ x.phase = .posting →
        exec (.cancel r) s = .next (u.finish i .tooLate .none)))

/-- The give-back of a chained ACQUIRE that fails in stage 2: its pair leaves a hold that other clients keep, or the hold is
released without a note and the completion waits for the RELEASE, or, the pair being gone, nothing is released. An ACQUIRE that fails
in stage 1 completes at once, and one in stage 2 by the give-back. The order of the examinations each causes, the resource offered
before the slots behind, is the model's choice (log 10); that the slot keeps its held report is log 36. -/
def Obligations.GiveBackReturnsTheFirstStage : Prop :=
  ∀ (i : SlotIx) (st : Status) (s : State) (sl : Slot) (a : Acquire), s.table.slot i = some sl → sl.acquire = some a →
    let hasPair (e : HoldEntry) := s.lease.heldEntry? a.first = some e ∧ e.hasClient sl.client = true
    (∀ e, hasPair e → (e.dropClient sl.client).clients ≠ [] → s.giveBack i st =
      (State.finish i st .none { s with lease := s.lease.modifyHold a.first (HoldEntry.dropClient sl.client) },
        s.table.behind i)) ∧
    (∀ e, hasPair e → (e.dropClient sl.client).clients = [] →
      let t : State := { s.enqueue (.release { resource := e.resource, mode := e.mode, note := [] }) (some i) with
        lease := s.lease.ownRelease s.station.address e.resource e.mode []
        table := s.table.modifySlot i (fun x =>
          { x with phase := .releasing, completion := some (sl.record st .none) }) }
      s.giveBack i st = (t, t.table.offer a.first ++ s.table.behind i)) ∧
    ((∀ e, ¬ hasPair e) → s.giveBack i st = (s.finish i st .none, s.table.behind i)) ∧
    (a.stage = .first → s.failAcquire i st = (s.finish i st .none, s.table.behind i)) ∧
    (a.stage = .second → s.failAcquire i st = s.giveBack i st)

/-- A QUERY completes OK at once with the snapshot of the record and of the local hold list's entry, in every station state; a
resource above 63 completes BAD_FIELD. A STATS completes OK at once with the three discard counters, format first, and sets each to
0 by the same change, in every station state. -/
def Obligations.QueryAndStatsAnswerAtOnce : Prop :=
  (∀ (i : SlotIx) (r : HostRecord) (s : State), finds i .query r s →
      (64 ≤ (r.field 0).toNat → exec (.query r) s = .next ((accepted i .query r s).finish i .badField .none)) ∧
      (∀ k : Resource, (r.field 0).toNat = k.val →
        exec (.query r) s = .next ((accepted i .query r s).finish i .ok (.snapshot
          { condition := (s.lease.record k).condition, mode := (s.lease.record k).mode,
            holders := (s.lease.record k).holders,
            intents := (s.lease.record k).intents.map (fun x => (x.originator, x.mode)),
            note := (s.lease.record k).note,
            clients := match s.lease.hold? k with | none => [] | some e => e.clients })))) ∧
  (∀ (i : SlotIx) (r : HostRecord) (s : State), finds i .stats r s →
      exec (.stats r) s = .next (State.finish i .ok (.counters s.ring.formatCount s.ring.hopCount s.ring.overflowCount)
        { accepted i .stats r s with ring := { s.ring with formatCount := 0, hopCount := 0, overflowCount := 0 } }))

/-- A CLEAR_FAULT that proceeds clears the client's fault flag and no other, and completes OK at once; an ACQUIRE or a RELEASE of
the client is then judged with the flag clear. -/
def Obligations.ClearFaultClearsOneFlag : Prop :=
  ∀ (i : SlotIx) (r : HostRecord) (s : State), finds i .clearFault r s →
    proceeds s.station.state ∨ s.station.state = .leaving →
    let t := State.finish i .ok .none { accepted i .clearFault r s with
      table := { (accepted i .clearFault r s).table with faults := s.table.faults.set r.clientNo false } }
    exec (.clearFault r) s = .next t ∧ t.table.fault r.clientNo = false ∧
      ∀ c, c ≠ r.clientNo → t.table.fault c = s.table.fault c

/-- A LEAVE that proceeds puts the station in LEAVING, or through it in HALTED, stops the roll timer, drops a held origination and ends
every ACQUIRE in WAITING ABORTED, one after another in acceptance order, in stage 2 by the give-back; then the LEAVE slot takes its first
release step, and the end of LEAVING is tested; claims are kept. The release step of the LEAVE slot: the HELD entry nearest the head of
the list is released without a note; with none left the slot waits (R73). A frame that joins the Outbound Queue is chosen at once by an
idle transmitter (log 33). -/
def Obligations.LeaveEndsRequestsAndHolds : Prop :=
  (∀ (i : SlotIx) (r : HostRecord) (s : State), finds i .leave r s → proceeds s.station.state →
      ∃ t, exec (.leave r) s = .next t ∧ (t.station.state = .leaving ∨ t.station.state = .halted) ∧
        t.roll.timer = none ∧ t.roll.held = false ∧ t.claim = s.claim ∧
        (∀ j x, t.table.slot j = some x → x.waitsFor = none) ∧
        let u : State := { accepted i .leave r s with
          station := { s.station with state := .leaving }, roll := { s.roll with timer := none, held := false } }
        exec (.leave r) s = atOnce s (State.testLeaving (State.leaveStep i (u.table.order.foldl State.endWaiting u)))) ∧
  (∀ (i : SlotIx) (s : State),
      (∀ x, s.table.slot i = some x → x.waitsFor ≠ none → s.endWaiting i = (s.failAcquire i .aborted).1) ∧
      ((∀ x, s.table.slot i = some x → x.waitsFor = none) → s.endWaiting i = s) ∧
      (s.lease.holds.find? (fun e => decide (e.phase = .held)) = none →
        s.leaveStep i = { s with table := s.table.modifySlot i (fun sl => { sl with phase := .waiting }) }) ∧
      (∀ e, s.lease.holds.find? (fun e => decide (e.phase = .held)) = some e →
        s.leaveStep i = { s.enqueue (.release { resource := e.resource, mode := e.mode, note := [] }) (some i) with
          lease := s.lease.ownRelease s.station.address e.resource e.mode []
          table := s.table.modifySlot i (fun sl => { sl with phase := .releasing, completion := none }) }))

/-- A RESTART outside UNCONFIGURED is taken without a slot: slots, flags, queues, claims, holds, replica and roster are dropped,
what R156 keeps is kept, the station is in JOINING and the RESTART notice is the first record. That frames in their processing time
are lost at BYPASS is the model's choice (log 9). -/
def Obligations.RestartDropsEverything : Prop :=
  ∀ (r : HostRecord) (s : State), s.inReset = false → formOk .restart r = true → s.station.state ≠ .unconfigured →
    exec (.restart r) s = .next { s with
      station := { s.station with state := .joining }
      lease := LeaseTable.initial
      claim := { s.claim with claims := [] }
      table := { RequestTable.initial with queue := [.notice (.state .restart s.station.state .joining)] }
      roll := { s.roll.retire with timer := none, roster := [], held := false }
      ring := { s.ring with
        linkUp := false, lossTimer := none, settleTimer := none, receiver := .hunting, processing := [],
        forwarding := [], transmitter := .idle, relief := 0, txLine := .silence }
      outbound := []
      probe := { s.probe with phase := .idle }
      host := { s.host with assembly := .empty, readPos := 0 } } ∧
    (∀ o, s.roll.outstanding = some o → o.sent = true →
      s.roll.retire.retired = some { sequence := o.sequence, stamp := o.stamp, age := 0 }) ∧
    ((∀ o, s.roll.outstanding = some o → o.sent = false) → s.roll.retire.retired = s.roll.retired) ∧
    s.roll.retire.outstanding = none ∧ s.roll.retire.sequence = s.roll.sequence

/-! ### The other port accesses -/

/-- A read of COMPLETION presents 0 and changes nothing else on an empty queue; else it presents the byte at the read position, which
rises, or returns to 0 as the record leaves and slots in POSTING post one after another (CompletionsArePostedInOrder). The order of a
posting and a notice is an operand (log 14). The first byte of each record is its length, every byte counted (R207). -/
def Obligations.CompletionReadDeliversBytes : Prop :=
  (∀ (first : Bool) (y : Strobe) (s : State), s.inReset = false → taken y → y.both = false →
    (s.table.queue = [] → exec (.completionRead first y) s = .next { s with host := { s.host with dataOut := 0 } }) ∧
    (∀ q rest, s.table.queue = q :: rest →
      (s.host.readPos + 1 < q.bytes.length → exec (.completionRead first y) s = .next { s with
        host := { s.host with dataOut := q.bytes.getD s.host.readPos 0, readPos := s.host.readPos + 1 } }) ∧
      (q.bytes.length ≤ s.host.readPos + 1 → exec (.completionRead first y) s = .next { s with
        host := { s.host with dataOut := q.bytes.getD s.host.readPos 0, readPos := 0 }
        table := if first then { s.table with queue := rest }
          else RequestTable.postWaiting 8 { s.table with queue := rest } }))) ∧
  (∀ q : QueueRecord, 5 ≤ q.bytes.length ∧ (q.bytes.getD 0 0).toNat = q.bytes.length % 256)

/-- A STATUS write clears each sticky flag whose bit it carries as 1, and bit 7 empties the assembly buffer, all as one change, and
is not stored. Each of the five commands carries its own bit whatever the rest of the byte: the model's choice (log 22). A STATUS read
shows REFUSED, NOTICE_LOST, PROBE_DONE and PROBE_BUSY in bits 0 to 3, RECORD_READY while the completion queue holds a record in bit 4,
ASSEMBLING while the assembly buffer is not EMPTY in bit 5, and 0 in bits 6 and 7. -/
def Obligations.StatusWriteClearsFlags : Prop :=
  (∀ (b : Byte) (y : Strobe) (s : State), s.inReset = false → taken y →
    let left (flag bit : Bool) := flag && !bit
    let written (r n d p a : Bool) : State := { s with
      host := { s.host with
        refused := left s.host.refused r, noticeLost := left s.host.noticeLost n
        assembly := if a then .empty else s.host.assembly }
      probe := { s.probe with done := left s.probe.done d, busy := left s.probe.busy p } }
    let b0 := b.getLsbD 0; let b1 := b.getLsbD 1; let b2 := b.getLsbD 2; let b3 := b.getLsbD 3; let b7 := b.getLsbD 7
    exec (.abandon b y) s = .next (written b0 b1 b2 b3 true) ∧
    exec (.clearRefused b y) s = .next (written true b1 b2 b3 b7) ∧
    exec (.clearNoticeLost b y) s = .next (written b0 true b2 b3 b7) ∧
    exec (.clearProbeDone b y) s = .next (written b0 b1 true b3 b7) ∧
    exec (.clearProbeBusy b y) s = .next (written b0 b1 b2 true b7)) ∧
  (∀ s : State, s.inReset = false →
    (portRead 2 s).getLsbD 0 = s.host.refused ∧ (portRead 2 s).getLsbD 1 = s.host.noticeLost ∧
    (portRead 2 s).getLsbD 2 = s.probe.done ∧ (portRead 2 s).getLsbD 3 = s.probe.busy ∧
    ((portRead 2 s).getLsbD 4 = true ↔ s.table.queue ≠ []) ∧ ((portRead 2 s).getLsbD 5 = true ↔ s.host.assembly ≠ .empty) ∧
    (portRead 2 s).getLsbD 6 = false ∧ (portRead 2 s).getLsbD 7 = false)

/-- R195: an INTMASK write replaces both enables and nothing else, a read returns them with every other bit 0, both are disabled at
reset, and no other command outside reset changes them. INT# follows at once. -/
def Obligations.InterruptMaskHoldsTwoEnables : Prop :=
  (∀ (b : Byte) (y : Strobe) (s : State), s.inReset = false → taken y →
    let t : State := { s with host := { s.host with recordInt := b.getLsbD 0, noticeLostInt := b.getLsbD 1 } }
    exec (.intmaskWrite b y) s = .next t ∧
    (t.intAsserted = true ↔ (s.table.queue ≠ [] ∧ b.getLsbD 0 = true) ∨ (s.host.noticeLost = true ∧ b.getLsbD 1 = true)) ∧
    portRead 3 t = (if b.getLsbD 0 then 1 else 0) + (if b.getLsbD 1 then 2 else 0)) ∧
  (∀ (straps : StationAddr), (State.initial straps).host.recordInt = false ∧ (State.initial straps).host.noticeLostInt = false) ∧
  (∀ (c : Instr) (s t : State), exec c s = .next t → isPower c = false → (∀ b y, c ≠ .intmaskWrite b y) →
    t.host.recordInt = s.host.recordInt ∧ t.host.noticeLostInt = s.host.noticeLostInt)

/-- A read of PROBE_TIME_LO presents the low byte and copies the high byte into the latch, which PROBE_TIME_HI reads; REQUEST and
PROBE read as 0; IDENT reads as the address in bits 0 to 3 and the state's code in bits 4 to 6; a write to an address without write
behaviour changes nothing. A PROBE write queues a PROBE frame with the next sequence and clears PROBE_DONE where the station is on
the ring and the unit IDLE; else it sets PROBE_BUSY and nothing else. A strobe of less than 60 ns is not taken, a longer one has the
same effect as the shortest; RD and WR low together are a write, which at the address of a read changes nothing (R183, R212). A frame that
joins the Outbound Queue is chosen at once by an idle transmitter (log 33). -/
def Obligations.ProbePortAccesses : Prop :=
  (∀ (y : Strobe) (s : State), s.inReset = false → taken y →
      (y.both = false → ∃ lo hi : Byte,
        exec (.probeTimeLoRead y) s = .next { s with host := { s.host with dataOut := lo, hiLatch := hi } } ∧
        lo.toNat = s.probe.time.toNat % 256 ∧ hi.toNat = s.probe.time.toNat / 256) ∧
      ∀ (a : IgnoredPort) (b : Byte), exec (.ignoredWrite a b y) s = .next s) ∧
  (∀ (b : Byte) (y : Strobe) (s : State), s.inReset = false → taken y →
      (s.station.state ≠ .unconfigured ∧ s.station.state ≠ .halted ∧ s.probe.phase = .idle →
        exec (.probe b y) s = atOnce s { s.enqueue (.probe (s.probe.sequence + 1)) none with
          probe := { s.probe with sequence := s.probe.sequence + 1, done := false, phase := .queued } }) ∧
      (¬ (s.station.state ≠ .unconfigured ∧ s.station.state ≠ .halted ∧ s.probe.phase = .idle) →
        exec (.probe b y) s = .next { s with probe := { s.probe with busy := true } })) ∧
  (∀ s : State, s.inReset = false →
      portRead 0 s = 0 ∧ portRead 6 s = 0 ∧ portRead 5 s = s.host.hiLatch ∧
      (portRead 4 s).toNat = s.probe.time.toNat % 256 ∧
      (portRead 7 s).toNat = s.station.address.val + 16 * (match s.station.state with
        | .unconfigured => 0 | .joining => 1 | .active => 2 | .broken => 3 | .resync => 4 | .leaving => 5 | .halted => 6)) ∧
  (∀ (c d : Instr) (y : Strobe) (s : State), cycle y c = some d →
      (y.lowNs < 60 → exec d s = .next s) ∧
      (taken y → (isRead c = true → y.both = false) → cycle .shortest c = some c → exec d s = exec c s) ∧
      (isRead c = true → y.both = true → exec d s = .next s))

/-! ### The receive link -/

/-- With the link UP, a START while HUNTING begins a frame with no bytes, and each cause of R159 discards the frame IN FRAME and
raises the format counter, which saturates at 65,535; a START then begins a new frame. That FRAME_START in the middle of a frame and
FRAMING_DISCARD while HUNTING change nothing is the model's choice (log 6), and so is that growth is taken as reported (log 4). A
completed frame that fails the checks of R162 raises the format counter and reaches no block, also after a DOWN that its END came before
(R161, log 8). What the receiver shows after a command
that brings a whole frame is the model's choice (log 24). Character by character, the receiver takes the character that arrives (log 5)
by the table of R159: a frame that END completes begins its processing time of 12 character times, one past 361 bytes is discarded. At
the end of its processing time a frame is received by the row of its kind and originator, or as one that fails the format check. -/
def Obligations.ReceiverFramesAndCounts : Prop :=
  (∀ (s : State) (bytes : List Byte), s.inReset = false → s.ring.linkUp = true →
      let count : Half := raised s.ring.formatCount
      (s.ring.receiver = .hunting →
        exec .frameStart s = .next { s with ring := { s.ring with receiver := .inFrame [] } } ∧
        ∀ c, exec (.framingDiscard c) s = .next s) ∧
      (s.ring.receiver = .inFrame bytes →
        exec .frameStart s = .next s ∧
        exec (.framingDiscard .start) s = .next { s with ring := { s.ring with receiver := .inFrame [], formatCount := count } } ∧
        ∀ c, c ≠ .start →
          exec (.framingDiscard c) s = .next { s with ring := { s.ring with receiver := .hunting, formatCount := count } })) ∧
  (∀ (bytes : List Byte) (s : State), receives bytes s → parseFrame bytes = none →
      exec (.formatDiscard bytes) s = .next (s.arrive bytes).countFormat ∧
      (s.arrive bytes).countFormat = { s with ring := { (s.arrive bytes).ring with formatCount := raised s.ring.formatCount } }) ∧
  (∀ s : State,
      let r := s.characterTime.ring
      let c := arriving s
      let waiting := s.ring.processing.map (fun a => { a with left := a.left - 1 })
      let takes (x : Receiver) (done : List Arrived) (n : Half) := r.receiver = x ∧ r.processing = waiting ++ done ∧ r.formatCount = n
      let discarded : Half := raised s.ring.formatCount
      (s.station.state.onRing = false ∨ s.ring.linkUp = false → takes s.ring.receiver [] s.ring.formatCount) ∧
      (s.station.state.onRing = true → s.ring.linkUp = true →
        (s.ring.receiver = .hunting → takes (if c = .start then .inFrame [] else .hunting) [] s.ring.formatCount) ∧
        ∀ bytes, s.ring.receiver = .inFrame bytes →
          (∀ b, c = .data b → bytes.length < 361 → takes (.inFrame (bytes ++ [b])) [] s.ring.formatCount) ∧
          (∀ b, c = .data b → 361 ≤ bytes.length → takes .hunting [] discarded) ∧
          (c = .endChar → takes .hunting [{ bytes := bytes, left := 12 }] s.ring.formatCount) ∧
          (c = .idle ∨ c = .violation → takes .hunting [] discarded) ∧
          (c = .start → takes (.inFrame []) [] discarded) ∧
          (c = .silence → takes (.inFrame bytes) [] s.ring.formatCount))) ∧
  (∀ (self : StationAddr) (bytes : List Byte),
      (parseFrame bytes = none → receiptOf self bytes = .formatDiscard bytes) ∧
      ∀ f, parseFrame bytes = some f →
        (f.origin = self → receiptOf self bytes = homecoming f) ∧ (f.origin ≠ self → receiptOf self bytes = receipt f))

/-- The format check refuses a frame shorter than 6 bytes, one whose last two bytes are not the CRC of the others, one of no known
kind or originator, and accepts each kind at the length of R162 only. -/
def Obligations.FormatCheckRefuses : Prop :=
  ∀ bytes : List Byte,
    (bytes.length < 6 → parseFrame bytes = none) ∧
    (bytes.drop (bytes.length - 2) ≠ halfBytes (crc16 (bytes.take (bytes.length - 2))) → parseFrame bytes = none) ∧
    (bytes.getD 0 0 ∉ ([0x51, 0x52, 0x53, 0x54, 0x55, 0x56] : List Byte) → parseFrame bytes = none) ∧
    (16 ≤ (bytes.getD 1 0).toNat → parseFrame bytes = none) ∧
    (∀ f, parseFrame bytes = some f → bytes.length =
      match f.body with
      | .claim _ => 9
      | .settle _ => 8
      | .release b => 7 + b.note.length
      | .roll b => 9 + (b.entries.map (fun e => 2 + e.holds.length + 2 * e.pendings.length)).sum
      | .roster b => 7 + b.stations.length
      | .probe _ => 6)

/-- A frame of another station that arrives with hop count 15 or more raises the hop-limit counter by 1, up to 65,535, goes to no block
and is not forwarded, whatever its kind, also after a DOWN that its END came before (R161, log 8). What the receiver shows of the arrival
is the model's choice (log 24). -/
def Obligations.HopLimitDiscards : Prop :=
  ∀ (f : Frame) (s : State), receives f.bytes s → f.wf = true → f.origin ≠ s.station.address → 15 ≤ f.hop.toNat →
    s.leavingDone = false →
    exec (receipt f) s = .next (hopCounted (s.arrive f.bytes)) ∧
    (s.ring.hopCount ≠ 0xFFFF → (hopCounted (s.arrive f.bytes)).ring.hopCount = s.ring.hopCount + 1) ∧
    (s.ring.hopCount = 0xFFFF → (hopCounted (s.arrive f.bytes)).ring.hopCount = 0xFFFF)

/-- A frame to be forwarded leaves with its hop count raised by 1 and joins the tail of the forwarding queue when its length fits
the free space, 4,096 bytes less those of the queue that are not yet sent; else the overflow counter is raised. An idle transmitter
makes its choice at the end of the change (R173, log 33). Another station's PROBE is forwarded and nothing else is done with it; in
JOINING so are CLAIM and SETTLE frames, and a RELEASE leaves its note alone. That a frame complete before a DOWN is taken and
forwarded after it is log 8; what the receiver shows of the arrival is the model's choice (log 24). -/
def Obligations.ForwardedFramesPass : Prop :=
  (∀ (f : Frame) (b : Body) (s : State),
      let g : Frame := { origin := f.origin, hop := f.hop + 1, body := b }
      let joined : State := { s with ring := { s.ring with forwarding := s.ring.forwarding ++ [g] } }
      let held := (s.ring.forwarding.map Frame.length).sum
      (∀ n, s.ring.transmitter = .sendingForwarded n → s.ring.freeSpace = 4096 - (held - (n - 1))) ∧
      ((∀ n, s.ring.transmitter ≠ .sendingForwarded n) → s.ring.freeSpace = 4096 - held) ∧
      (g.length ≤ s.ring.freeSpace → s.forward f b = joined) ∧
      (s.ring.freeSpace < g.length → s.forward f b = { s with ring := { s.ring with
        overflowCount := raised s.ring.overflowCount } })) ∧
  (∀ (f : Frame) (s : State), foreign f s →
      (∀ q, f.body = .probe q → exec (receipt f) s = atOnce s ((s.arrive f.bytes).forward f f.body)) ∧
      (s.station.state = .joining →
        (∀ b, f.body = .claim b → exec (receipt f) s = atOnce s ((s.arrive f.bytes).forward f f.body)) ∧
        (∀ b, f.body = .settle b → exec (receipt f) s = atOnce s ((s.arrive f.bytes).forward f f.body)) ∧
        (∀ b, f.body = .release b → exec (receipt f) s = atOnce s (((s.arrive f.bytes).mapLease (fun l =>
          l.modify b.resource (fun x => if b.mode = .exclusive then
            { x with note := if b.note = [] then .absent else .present b.note } else x))).forward f f.body))))

/-- Another station's CLAIM: the station objects from a conflicting hold or a claim of its own that precedes it, by writing its
address into an empty objection field; else a conflicting claim of its own yields; then the intent is recorded and the frame is
forwarded, also after a DOWN that its END came before (R161, log 8). What the receiver shows of the arrival is the model's choice (log
24). -/
def Obligations.PassingClaimIsJudged : Prop :=
  ∀ (f : Frame) (b : ClaimBody) (s : State), foreign f s → applies s → f.body = .claim b →
    let a := s.arrive f.bytes
    (objects f.origin b s → exec (receipt f) s = atOnce s ((intentTaken f.origin b a).forward f
      (.claim { b with objection := some (b.objection.getD s.station.address) }))) ∧
    (yields f.origin b s → exec (receipt f) s = atOnce s ((intentTaken f.origin b { a with claim := { s.claim with
      claims := s.claim.claims.map (fun e => if e.resource = b.resource then { e with yielding := true } else e) } }).forward f
        (.claim b))) ∧
    (¬ objects f.origin b s → ¬ yields f.origin b s →
      exec (receipt f) s = atOnce s ((intentTaken f.origin b a).forward f (.claim b)))

/-- Another station's SETTLE: a grant makes its originator a holder, a refusal or a withdrawal removes the intent of the same
sequence; what frees the record offers the resource, and the frame is forwarded unchanged. That a SHARED grant of the EXCLUSIVE
holder itself offers nothing is the model's choice (log 35). Another station's RELEASE: the releaser leaves the holders, an EXCLUSIVE
release sets the note, the removal of a holder offers the resource, and the frame is forwarded unchanged; both also after a DOWN that
the END came before (R161, log 8). What the receiver shows of the arrival is the model's choice (log 24). -/
def Obligations.PassingSettleAndReleaseAreApplied : Prop :=
  (∀ (f : Frame) (b : SettleBody) (s : State), foreign f s → applies s → f.body = .settle b →
      let a := s.arrive f.bytes
      let record := s.lease.record b.resource
      let changed (g : ResourceRecord → ResourceRecord) := a.mapLease (fun l => l.modify b.resource g)
      let offered (t : State) := t.reexamine (t.table.offer b.resource)
      (b.outcome = .granted → (∃ y ∈ record.holders, y ∉ (record.grant f.origin b.mode).holders) →
        exec (receipt f) s = atOnce s ((offered (changed (ResourceRecord.grant f.origin b.mode))).forward f f.body)) ∧
      (b.outcome = .granted → (∀ y ∈ record.holders, y ∈ (record.grant f.origin b.mode).holders) →
        exec (receipt f) s = atOnce s ((changed (ResourceRecord.grant f.origin b.mode)).forward f f.body)) ∧
      (∀ i, b.outcome ≠ .granted → record.intentOf f.origin = some i → i.sequence = b.sequence →
        exec (receipt f) s = atOnce s ((offered (changed (ResourceRecord.dropIntent f.origin))).forward f f.body)) ∧
      (b.outcome ≠ .granted → (∀ i, record.intentOf f.origin = some i → i.sequence ≠ b.sequence) →
        exec (receipt f) s = atOnce s (a.forward f f.body))) ∧
  (∀ (f : Frame) (b : ReleaseBody) (s : State), foreign f s → applies s → f.body = .release b →
      let t := (s.arrive f.bytes).mapLease (fun l => l.modify b.resource (ResourceRecord.release f.origin b.mode b.note))
      (f.origin ∈ (s.lease.record b.resource).holders →
        exec (receipt f) s = atOnce s ((t.reexamine (t.table.offer b.resource)).forward f f.body)) ∧
      (f.origin ∉ (s.lease.record b.resource).holders → exec (receipt f) s = atOnce s (t.forward f f.body)))

/-- Another station's ROLL, by the first row of R119: a duplicate address halts the station, a full roll is discarded and counted, a lower
roll makes the station abandon its own, a higher roll is removed, and any other is forwarded with this station's entry at its end. This
station's roll entry lists its holds in both phases and its claims in both phases, in list order, fresh in JOINING only. An abandoned roll
still QUEUED leaves the Outbound Queue, whose other frames keep their order; one being sent is cut: IDLE takes the place of the rest of
the frame and its END, then come the 4 IDLE of the gap (R171), that place by place the model's choice (log 29). That a ROLL complete
before a DOWN is taken after it, in BROKEN too, is log 8 and log 37; what the receiver shows of the arrival is log 24. -/
def Obligations.PassingRollTakesTheOwnEntry : Prop :=
  (∀ (f : Frame) (b : RollBody) (s : State), foreign f s → f.body = .roll b →
      let a := s.arrive f.bytes
      let named := ∃ e ∈ b.entries, addressOf e.addr = s.station.address
      let waits := s.roll.inPhase .queued = true ∨ s.roll.inPhase .circulating = true
      let appended (t : State) : State := t.forward f (.roll { b with entries := b.entries ++ [t.ownEntry] })
      (named → exec (receipt f) s = .next a.duplicateHalt) ∧
      (¬ named → 16 ≤ b.entries.length → exec (receipt f) s = .next (hopCounted a)) ∧
      (¬ named → b.entries.length < 16 → waits → f.origin < s.station.address →
        exec (receipt f) s = atOnce s (appended a.abandonRoll).testLeaving ∧
        ∀ o, s.roll.outstanding = some o →
          a.abandonRoll.roll = { s.roll with outstanding := some { o with phase := .abandoned, age := 0 } } ∧
          (o.phase = .circulating → a.abandonRoll.outbound = s.outbound ∧ a.abandonRoll.ring = a.ring) ∧
          (o.phase = .queued →
            let left := s.outbound.filter (fun g => !g.frame.body.isRoll)
            let kept (x : Transmitter) : RingPort := { a.ring with transmitter := x, relief := if left = [] then 0 else s.ring.relief }
            a.abandonRoll.outbound = left ∧
            (∀ n g rest, s.ring.transmitter = .sendingOwn n → s.outbound = g :: rest → g.frame.body.isRoll = true →
              a.abandonRoll.ring = kept (.gap (g.frame.length + 2 - n + 4))) ∧
            ((∀ n g rest, s.ring.transmitter = .sendingOwn n → s.outbound = g :: rest → g.frame.body.isRoll = false) →
              a.abandonRoll.ring = kept s.ring.transmitter))) ∧
      (¬ named → b.entries.length < 16 → waits → s.station.address < f.origin → exec (receipt f) s = .next a) ∧
      (¬ named → b.entries.length < 16 → ¬ waits → exec (receipt f) s = atOnce s (appended a))) ∧
  (∀ s : State,
      s.ownEntry.holds = s.lease.holds.map (fun e => BitVec.ofNat 8 (e.resource.val + if e.mode = .exclusive then 128 else 0)) ∧
      s.ownEntry.pendings = s.claim.claims.map (fun e =>
        (BitVec.ofNat 8 (e.resource.val + if e.mode = .exclusive then 128 else 0), e.sequence)) ∧
      addressOf s.ownEntry.addr = s.station.address ∧
      (freshOf s.ownEntry.addr = true ↔ s.station.state = .joining))

/-- Another station's ROSTER that names this station once and no address twice is accepted outside JOINING: the departed and the fresh
stations are reclaimed and what lost a holder or an intent is offered, the roster is replaced, a ROSTER notice is raised when a list of
added or departed addresses is not empty, an ABANDONED own roll is cleared, and the roll timer restarts from 0 in ACTIVE with no roll
outstanding and none held; any other is forwarded with the clearing alone. A reclaim takes the named stations from every record and
keeps the other holders and intents, the modes and the notes. A ROSTER of another station clears an ABANDONED own roll, retiring one
that was sent; the roll timer then starts in ACTIVE, and in JOINING and RESYNC a new roll is originated. That the offered slots are
examined before the roster is replaced and the notice raised is the model's choice (log 12); so is that a ROSTER complete before a DOWN is
taken after it (log 8), what a station then does in BROKEN, and in JOINING, where the origination waits for the link (log 37), and what
the receiver shows of the arrival (log 24). -/
def Obligations.PassingRosterReclaims : Prop :=
  (∀ (f : Frame) (b : RosterBody) (s : State), foreign f s → f.body = .roster b →
      let a := s.arrive f.bytes
      let self := s.station.address
      let old := s.roll.roster
      let new := rosterOf b.stations
      let zs := reclaimSet self old new
      let good := self ∈ new.map RosterEntry.address ∧ (new.map RosterEntry.address).Nodup
      let r := a.mapLease (LeaseTable.reclaim zs)
      let u := r.reexamine (r.table.offerAll (s.lease.reclaimed zs))
      let v := (rosterNotice b.sequence new (added self old new) (departed self old new)
        { u with roll := { u.roll with roster := new } }).rosterClears
      let w := if v.roll.outstanding = none ∧ v.roll.held = false then timerFromZero v else v
      (applies s → good → exec (receipt f) s = atOnce s (w.forward f f.body) ∧
        (w.forward f f.body).roll.inPhase .abandoned = false ∧ (w.forward f f.body).station = s.station ∧
        ∀ z ∈ zs, ∀ k, z ∉ ((w.forward f f.body).lease.record k).holders ∧
          ((w.forward f f.body).lease.record k).intentOf z = none) ∧
      (¬ applies s ∨ ¬ good → exec (receipt f) s = atOnce s (a.rosterClears.forward f f.body))) ∧
  (∀ (self : StationAddr) (old new : List RosterEntry) (z : StationAddr),
      let among (l : List RosterEntry) := z ∈ l.map RosterEntry.address
      let gone := z ≠ self ∧ among old ∧ ¬ among new
      let fresh := z ≠ self ∧ { address := z, fresh := true } ∈ new
      (z ∈ reclaimSet self old new ↔ gone ∨ fresh) ∧ (z ∈ departed self old new ↔ gone) ∧
      (z ∈ added self old new ↔ (z ≠ self ∧ among new ∧ ¬ among old) ∨ fresh) ∧
      (added self old new).Pairwise (· < ·) ∧ (departed self old new).Pairwise (· < ·)) ∧
  (∀ (zs : List StationAddr) (l : LeaseTable) (k : Resource),
      let r := l.record k
      let t := (l.reclaim zs).record k
      t.holders = r.holders.filter (fun y => decide (y ∉ zs)) ∧
      t.intents = r.intents.filter (fun i => decide (i.originator ∉ zs)) ∧ t.note = r.note ∧
      (t.holders ≠ [] → t.mode = r.mode) ∧ (r.lawful → t.holders = [] → t.mode = none) ∧ (l.reclaim zs).holds = l.holds ∧
      (k ∈ l.reclaimed zs ↔ ∃ z ∈ zs, z ∈ r.holders ∨ r.intentOf z ≠ none) ∧ (l.reclaimed zs).Pairwise (· < ·)) ∧
  (∀ (s : State) (o : OutstandingRoll), s.roll.outstanding = some o →
      let r : RollUnit := { s.roll with
        outstanding := none
        retired := if o.sent then some { sequence := o.sequence, stamp := o.stamp, age := 0 } else s.roll.retired }
      (o.phase ≠ .abandoned → s.rosterClears = s) ∧
      (o.phase = .abandoned → s.station.state = .active → s.rosterClears = { s with roll := { r with timer := some 0 } }) ∧
      (o.phase = .abandoned → s.station.state = .leaving ∨ s.station.state = .broken ∨
          (s.station.state = .joining ∧ s.ring.linkUp = false) → s.rosterClears = { s with roll := r }) ∧
      (o.phase = .abandoned → s.station.state = .resync ∨ (s.station.state = .joining ∧ s.ring.linkUp = true) →
        s.rosterClears = State.originate { s with roll := r }))

/-! ### Own frames home -/

/-- A returned CLAIM that matches a CIRCULATING entry takes it from the list and is judged by R47: WITHDRAWN when cancelled or in
LEAVING, GRANTED with no objection and no yielding, else REFUSED. The SETTLE is queued and every waiting slot examined. A report takes its
slot to SETTLING with the report held; REFUSED raises the patience of a waiting request by 1 up to 15, LOST_CIRCUIT the lost count by 1,
and nothing else changes (heldReport). That a CLAIM complete before a DOWN is judged after it is log 8; what the receiver shows of the
arrival is the model's choice (log 24). -/
def Obligations.OwnClaimIsJudged : Prop :=
  (∀ (i : SlotIx) (r : Report) (s : State) (sl : Slot) (a : Acquire), s.table.slot i = some sl → sl.acquire = some a →
    s.report i r = { s with table := s.table.setSlot i (some { sl with phase := .settling, acquire := some (heldReport r a) }) }) ∧
  ∀ (hop : Byte) (b : ClaimBody) (s : State) (e : ClaimEntry) (sl : Slot),
    receives (Frame.bytes { origin := s.station.address, hop := hop, body := .claim b }) s →
    s.claim.claims.find? (fun e => decide (e.phase = .circulating ∧ e.sequence = b.sequence ∧ e.resource = b.resource ∧
      e.mode = b.mode)) = some e → s.table.slot e.slot = some sl →
    let f : Frame := { origin := s.station.address, hop := hop, body := .claim b }
    let u : State := { s.arrive f.bytes with claim := { s.claim with claims := s.claim.claims.erase e } }
    let settle (o : SettleOutcome) : Body :=
      .settle { resource := e.resource, mode := e.mode, sequence := e.sequence, outcome := o }
    let ends (o : SettleOutcome) (r : Report) : State := (u.enqueue (settle o) (some e.slot)).report e.slot r
    let examined (t : State) : State := t.reexamine t.table.everyWaiting
    (e.cancel = true → exec (.ownClaimReturn hop b) s = atOnce s (examined (ends .withdrawn (.withdrawn .cancelled)))) ∧
    (e.cancel = false → s.station.state = .leaving →
      exec (.ownClaimReturn hop b) s = atOnce s (examined (ends .withdrawn (.withdrawn .leaving)))) ∧
    (e.cancel = false → s.station.state ≠ .leaving → b.objection = none → e.yielding = false →
      exec (.ownClaimReturn hop b) s = atOnce s (examined ((State.report e.slot .granted (State.enqueue (settle .granted) (some e.slot)
        { u with lease := s.lease.ownGrant s.station.address e.resource e.mode (sl.client, sl.tag) })).mapTable
          (fun t => t.modifyAcquire e.slot (fun x => { x with groups := x.groups ++
            [{ resource := e.resource, mode := e.mode, note := (s.lease.record e.resource).note }] }))))) ∧
    (e.cancel = false → s.station.state ≠ .leaving → b.objection ≠ none ∨ e.yielding = true →
      exec (.ownClaimReturn hop b) s = atOnce s (examined (ends .refused .refused)))

/-- A returned CLAIM that matches no CIRCULATING entry is stale: it changes no state of the Claim Engine, no replica record and no request
slot, is counted in no discard counter and posts nothing. That holds too of a CLAIM complete before a DOWN and taken after it (R161, log
8). -/
def Obligations.StaleReturnChangesNothing : Prop :=
  ∀ (hop : Byte) (b : ClaimBody) (s : State),
    receives (Frame.bytes { origin := s.station.address, hop := hop, body := .claim b }) s → s.leavingDone = false →
    (∀ e ∈ s.claim.claims, ¬ (e.phase = .circulating ∧ e.sequence = b.sequence ∧ e.resource = b.resource ∧ e.mode = b.mode)) →
    ∃ t, exec (.ownClaimReturn hop b) s = .next t ∧ t.claim = s.claim ∧ t.lease = s.lease ∧ t.table = s.table ∧
      t.ring.formatCount = s.ring.formatCount ∧ t.ring.hopCount = s.ring.hopCount ∧
      t.ring.overflowCount = s.ring.overflowCount ∧ t.outbound = s.outbound ∧ t.ring.forwarding = s.ring.forwarding ∧
      t.station = s.station ∧ t.roll = s.roll ∧ t.probe = s.probe ∧ t.host = s.host

/-- An own ROLL comes home by the first row of R122: a CIRCULATING match completes, an ABANDONED match and a retired match are
stripped, and any other return halts the station for a duplicate address. The completion, in the order of R124: the replica rebuilt
from the entries, the departed and fresh stations reclaimed, every resource offered, the ROSTER frame queued, the roster replaced, a
ROSTER notice when it differs, then from JOINING and RESYNC the change to ACTIVE with the ROLL_DONE notice, and the roll timer from 0
in ACTIVE. That the slots of the offered resources are examined before the ROSTER is queued is the model's choice (log 12), and so is
that the waiting slots are examined before the ROLL_DONE notice (log 11), that a ROLL complete before a DOWN is taken after it (log 8), what
happens then in BROKEN, and in JOINING, where the origination waits for the link (log 37), and what the receiver shows of the arrival
(log 24). -/
def Obligations.OwnRollComesHome : Prop :=
  ∀ (hop : Byte) (b : RollBody) (s : State),
    receives (Frame.bytes { origin := s.station.address, hop := hop, body := .roll b }) s → b.wf = true → s.leavingDone = false →
    let f : Frame := { origin := s.station.address, hop := hop, body := .roll b }
    let a := s.arrive f.bytes
    let is (o : OutstandingRoll) := o.sequence = b.sequence ∧ o.stamp = b.stamp
    let retiredIs := ∃ o, s.roll.retired = some o ∧ o.sequence = b.sequence ∧ o.stamp = b.stamp
    let cleared : RollUnit := { s.roll with outstanding := none }
    let self := s.station.address
    let old := s.roll.roster
    let new : List RosterEntry := b.entries.map (fun e => { address := addressOf e.addr, fresh := freshOf e.addr })
    let rebuilt : State := { a with roll := cleared, lease := (s.lease.rebuild self b.entries).reclaim (reclaimSet self old new) }
    let offered := rebuilt.reexamine (rebuilt.table.offerAll (List.finRange 64))
    let announced := offered.enqueue (.roster { sequence := b.sequence, stations := b.entries.map (fun e =>
      addressByte (addressOf e.addr) (freshOf e.addr)) }) none
    let told := rosterNotice b.sequence new (added self old new) (departed self old new)
      { announced with roll := { announced.roll with roster := new } }
    let joined : State := { told with station := { told.station with state := .active } }
    let done (st : StationState) := timerFromZero
      ((joined.reexamine joined.table.everyWaiting).raiseNotice (.state .rollDone st .active))
    (∀ o, s.roll.outstanding = some o → o.phase = .circulating → is o →
      (s.station.state = .joining → exec (.ownRollReturn hop b) s = atOnce s (done .joining)) ∧
      (s.station.state = .resync → exec (.ownRollReturn hop b) s = atOnce s (done .resync)) ∧
      (s.station.state = .active → exec (.ownRollReturn hop b) s = atOnce s (timerFromZero told)) ∧
      (s.station.state = .leaving ∨ s.station.state = .broken → exec (.ownRollReturn hop b) s = atOnce s told) ∧
      ∃ t, exec (.ownRollReturn hop b) s = .next t ∧ t.roll.outstanding = none ∧ t.roll.roster = new ∧
        made s none (.roster { sequence := b.sequence, stations := b.entries.map (fun e =>
          addressByte (addressOf e.addr) (freshOf e.addr)) }) ∈ t.outbound) ∧
    (∀ o, s.roll.outstanding = some o → o.phase = .abandoned → is o → s.station.state = .active →
      exec (.ownRollReturn hop b) s = .next { a with roll := { cleared with timer := some 0 } }) ∧
    (∀ o, s.roll.outstanding = some o → o.phase = .abandoned → is o →
      s.station.state = .resync ∨ (s.station.state = .joining ∧ s.ring.linkUp = true) →
      exec (.ownRollReturn hop b) s = atOnce s (State.originate { a with roll := cleared })) ∧
    (∀ o, s.roll.outstanding = some o → o.phase = .abandoned → is o →
      s.station.state = .leaving ∨ s.station.state = .broken ∨ (s.station.state = .joining ∧ s.ring.linkUp = false) →
      exec (.ownRollReturn hop b) s = .next { a with roll := cleared }) ∧
    ((∀ o, s.roll.outstanding = some o → o.phase = .queued ∨ ¬ is o) → retiredIs →
      exec (.ownRollReturn hop b) s = .next { a with roll := { s.roll with retired := none } }) ∧
    ((∀ o, s.roll.outstanding = some o → o.phase = .queued ∨ ¬ is o) → ¬ retiredIs →
      exec (.ownRollReturn hop b) s = .next a.duplicateHalt)

/-- The rebuild from a completed roll keeps every note and the local hold list; holders come from this station's HELD entries and
the other stations' entry holds alone, all of them where every one listed is SHARED, and a station listed alone is the one holder.
Where entries conflict, the later prevails, this station's holds standing first: the last hold listed gives the mode, an EXCLUSIVE one
alone, and SHARED ones after the last EXCLUSIVE drop what stood before. Intents come from the other stations' pendings, with age 0,
one for each pending whose station does not hold. -/
def Obligations.RebuildShowsTheRoll : Prop :=
  ∀ (self : StationAddr) (es : List RollEntry) (l : LeaseTable) (k : Resource),
    let t := l.rebuild self es
    let own (e : HoldEntry) := e ∈ l.holds ∧ e.phase = .held ∧ e.resource = k
    let listed (y : StationAddr) (m : Mode) := (y = self ∧ ∃ e, own e ∧ e.mode = m) ∨
      ∃ e ∈ es, addressOf e.addr = y ∧ y ≠ self ∧ ∃ b ∈ e.holds, resourceOf b = k ∧ holdByteMode b = m
    let applied : List (StationAddr × Mode) :=
      (l.holds.filter (fun e => decide (e.phase = .held ∧ e.resource = k))).map (fun e => (self, e.mode)) ++
        (es.filter (fun e => decide (addressOf e.addr ≠ self))).flatMap (fun e =>
          (e.holds.filter (fun b => decide (resourceOf b = k))).map (fun b => (addressOf e.addr, holdByteMode b)))
    (applied = [] → (t.record k).holders = [] ∧ (t.record k).mode = none) ∧
    (∀ before y, applied = before ++ [(y, .exclusive)] → (t.record k).holders = [y] ∧ (t.record k).mode = some .exclusive) ∧
    (∀ before y later, applied = before ++ (y, .exclusive) :: later → later ≠ [] → (∀ p ∈ later, p.2 = .shared) →
      (t.record k).mode = some .shared ∧ ∀ z, z ∈ (t.record k).holders ↔ (z, .shared) ∈ later) ∧
    (applied ≠ [] → (∀ p ∈ applied, p.2 = .shared) → (t.record k).mode = some .shared) ∧
    t.holds = l.holds ∧ (t.record k).note = (l.record k).note ∧
    (∀ y ∈ (t.record k).holders, ∃ m, listed y m) ∧
    ((∀ y, ¬ listed y .exclusive) → ∀ y, y ∈ (t.record k).holders ↔ listed y .shared) ∧
    (∀ y, (∃ m, listed y m) → (∀ z m, listed z m → z = y) → (t.record k).holders = [y]) ∧
    (∀ i ∈ (t.record k).intents, i.age = 0 ∧ i.originator ∉ (t.record k).holders ∧
      ∃ e ∈ es, addressOf e.addr = i.originator ∧ i.originator ≠ self ∧
        ∃ p ∈ e.pendings, resourceOf p.1 = k ∧ holdByteMode p.1 = i.mode ∧ p.2 = i.sequence) ∧
    (∀ e ∈ es, addressOf e.addr ≠ self → addressOf e.addr ∉ (t.record k).holders → ∀ p ∈ e.pendings, resourceOf p.1 = k →
      ∃ i ∈ (t.record k).intents, i.originator = addressOf e.addr)

/-- The halt for a duplicate address: BYPASS is asserted, both queues, the claims and the holds are emptied, this station leaves
every holder set, the roll is retired or dropped, and every slot that is not in POSTING is ended ABORTED, in acceptance order, with its
stage and no content: its record stands in the completion queue, or its slot waits in POSTING with it; slots in POSTING keep their
records. The STATE notice of cause DUPLICATE_ADDRESS is raised last, and is lost with NOTICE_LOST set on a full queue. That frames in
their processing time are lost is the model's choice (log 9). -/
def Obligations.DuplicateAddressHalts : Prop :=
  ∀ s : State, s.inReset = false →
    let t := s.duplicateHalt
    let ended := (s.table.order.filter (fun i => decide ((s.table.slot i).map Slot.phase ≠ some .posting))).foldl
      (fun tb i => tb.finish i .aborted .none) s.table
    t.station = { s.station with state := .halted } ∧ t.bypassAsserted = true ∧ t.outbound = [] ∧ t.ring.forwarding = [] ∧
    t.ring.linkUp = false ∧ t.ring.receiver = .hunting ∧ t.ring.transmitter = .silent ∧ t.ring.relief = 0 ∧
    t.ring.formatCount = s.ring.formatCount ∧ t.ring.hopCount = s.ring.hopCount ∧
    t.ring.overflowCount = s.ring.overflowCount ∧ t.claim = { s.claim with claims := [] } ∧ t.lease.holds = [] ∧
    (∀ k, s.station.address ∉ (t.lease.record k).holders ∧ (t.lease.record k).intents = (s.lease.record k).intents) ∧
    t.roll = { s.roll.retire with timer := none, held := false } ∧ t.probe = { s.probe with phase := .idle } ∧
    (∀ i x, t.table.slot i = some x → x.phase = .posting) ∧ t.table.faults = s.table.faults ∧
    (ended.queue.length < 16 → t.host = s.host ∧
      t.table = { ended with queue := ended.queue ++ [.notice (.state .duplicateAddress s.station.state .halted)] }) ∧
    (16 ≤ ended.queue.length → t.host = { s.host with noticeLost := true } ∧ t.table = ended) ∧
    (∀ i sl, s.table.slot i = some sl → sl.phase ≠ .posting →
      (.completion (sl.record .aborted .none) ∈ t.table.queue ∧ t.table.slot i = none) ∨
        ∃ x, t.table.slot i = some x ∧ x.phase = .posting ∧ x.completion = some (sl.record .aborted .none)) ∧
    (∀ i sl, s.table.slot i = some sl → sl.phase = .posting → ∃ n, t.table.slot i = some { sl with accept := n })

/-- A PROBE that comes home to an OUT probe of its sequence writes the elapsed time and sets PROBE_DONE; any other is ignored. An
own SETTLE, RELEASE or ROSTER that comes home is stripped, whatever its hop count: it goes to no block and is not forwarded, and
only the receiver shows that a frame arrived. That a frame complete before a DOWN is taken after it is log 8; what the receiver shows of
the arrival is the model's choice (log 24). -/
def Obligations.OwnProbeAndFramesAreStripped : Prop :=
  (∀ (hop q : Byte) (s : State),
      receives (Frame.bytes { origin := s.station.address, hop := hop, body := .probe q }) s → s.leavingDone = false →
      let f : Frame := { origin := s.station.address, hop := hop, body := .probe q }
      (s.probe.phase = .out ∧ q = s.probe.sequence →
        exec (.ownProbeReturn hop q) s = .next { s.arrive f.bytes with probe := { s.probe with
          time := s.station.micros - s.probe.sendTime, done := true, phase := .idle } }) ∧
      (¬ (s.probe.phase = .out ∧ q = s.probe.sequence) →
        exec (.ownProbeReturn hop q) s = .next (s.arrive f.bytes))) ∧
  (∀ (hop : Byte) (b : StrippedBody) (s : State),
      receives (Frame.bytes { origin := s.station.address, hop := hop, body := b.toBody }) s → s.leavingDone = false → b.toBody.wf = true →
      let f : Frame := { origin := s.station.address, hop := hop, body := b.toBody }
      exec (.ownFrameStripped hop b) s = .next (s.arrive f.bytes) ∧
      (s.arrive f.bytes = { s with ring := { s.ring with processing := s.ring.processing.tail } } ∨
        s.arrive f.bytes = { s with ring := { s.ring with receiver := .hunting } }))

/-! ### The transmitter -/

/-- The table of R173 with the relief counter of R172, at a frame boundary. A choice during a frame of this station or a silence
changes nothing; one that ends a forwarded frame takes it from the queue first (log 4). An own frame joins the tail of the Outbound
Queue with hop count 0, and where a change makes a frame available an idle transmitter makes its choice at the end of it, by the same
change (log 33). -/
def Obligations.TransmitterChoosesTheNextFrame : Prop :=
  ∀ s : State, s.inReset = false →
    let own : State := { s with ring := { s.ring with transmitter := .sendingOwn 0, relief := 0 } }
    let forwarded (r : Nat) : State := { s with ring := { s.ring with transmitter := .sendingForwarded 0, relief := r } }
    let reliefRoom (f : OwnFrame) := s.ring.relief = 8 ∧ f.frame.length + 361 ≤ s.ring.freeSpace
    (atBoundary s.ring.transmitter = true →
      (∀ f rest, s.outbound = f :: rest → s.ring.forwarding = [] → exec .transmitChoice s = .next own) ∧
      (∀ f rest, s.outbound = f :: rest → s.ring.forwarding ≠ [] → reliefRoom f → exec .transmitChoice s = .next own) ∧
      (∀ f rest, s.outbound = f :: rest → s.ring.forwarding ≠ [] → ¬ reliefRoom f →
        exec .transmitChoice s = .next (forwarded (min 8 (s.ring.relief + 1)))) ∧
      (s.outbound = [] → s.ring.forwarding ≠ [] → exec .transmitChoice s = .next (forwarded s.ring.relief)) ∧
      (s.outbound = [] → s.ring.forwarding = [] →
        exec .transmitChoice s = .next { s with ring := { s.ring with transmitter := .idle } })) ∧
    (s.ring.transmitter = .silent ∨ (∃ n, s.ring.transmitter = .sendingOwn n) → exec .transmitChoice s = .next s) ∧
    (∀ n, s.ring.transmitter = .sendingForwarded n → exec .transmitChoice s = exec .transmitChoice { s with ring := { s.ring with
      forwarding := s.ring.forwarding.tail, transmitter := .endDue } }) ∧
    (∀ (b : Body) (o : Option SlotIx), s.enqueue b o = { s with outbound := s.outbound ++ [made s o b] }) ∧
    (∀ before : State,
      let empty := before.outbound = [] ∧ before.ring.forwarding = []
      (empty → s.ring.transmitter = .idle → exec .transmitChoice s = .next (s.startIdle before)) ∧
      (¬ empty ∨ s.ring.transmitter ≠ .idle → s.startIdle before = s))

/-- The transmission of a CLAIM takes it from the queue, and its QUEUED entry goes CIRCULATING with its timer at 0; no other field
and no other entry changes. The transmission of a ROLL makes the QUEUED outstanding roll CIRCULATING, sent, age 0; that of a PROBE
records the send time and starts the probe timer with the phase OUT. That the command brings the end of the frame is the model's
choice (log 4). -/
def Obligations.SentClaimRollAndProbeRunTheirTimers : Prop :=
  (∀ (o : Option SlotIx) (g : Frame) (b : ClaimBody) (rest : List OwnFrame) (s : State),
      sends { frame := g, owner := o } rest s → g.body = .claim b →
      exec .claimTransmitted s = .next (State.testLeaving { sentHead rest s with claim := { s.claim with
        claims := s.claim.claims.map (fun e =>
          if e.phase = .queued ∧ e.sequence = b.sequence ∧ e.resource = b.resource ∧ e.mode = b.mode
          then { e with phase := .circulating, timer := 0 } else e) } })) ∧
  (∀ (w : Option SlotIx) (g : Frame) (rest : List OwnFrame) (s : State), sends { frame := g, owner := w } rest s →
      (∀ b o, g.body = .roll b → s.roll.outstanding = some o → o.phase = .queued →
        exec .rollTransmitted s = .next (State.testLeaving { sentHead rest s with roll := { s.roll with
          outstanding := some { o with phase := .circulating, sent := true, age := 0 } } })) ∧
      (∀ q, g.body = .probe q →
        exec .probeTransmitted s = .next (State.testLeaving { sentHead rest s with probe := { s.probe with
          sendTime := s.station.micros, timer := 0, phase := .out } })))

/-- At the transmission of its SETTLE a slot goes on by the first row of R95 that holds, and the end of LEAVING is tested. That the
command brings the end of the frame is the model's choice (log 4). -/
def Obligations.SentSettleLetsTheSlotGoOn : Prop :=
  ∀ (i : SlotIx) (g : Frame) (b : SettleBody) (rest : List OwnFrame) (s : State) (sl : Slot) (a : Acquire) (c : Configuration),
    sends { frame := g, owner := some i } rest s → g.body = .settle b → s.table.slot i = some sl →
    sl.phase = .settling → sl.acquire = some a → s.station.config = some c →
    let u := sentHead rest s
    let leaving := s.station.state = .leaving
    let ends (p : State × Work) := exec .settleTransmitted s = .next (reexamined p).testLeaving
    let again : State × Work := (u.mapTable (fun t => t.modifySlot i (fun sl =>
      { sl with phase := .waiting, acquire := some { a with report := none } })), [(i, none)])
    (a.report = some .granted → a.stage = .second ∨ a.followOn = none →
      ends (u.finish i .ok (.groups a.groups), u.table.behind i)) ∧
    (a.report = some .granted → a.stage = .first → a.followOn ≠ none → leaving →
      ends ((u.mapTable (fun t => t.modifyAcquire i (fun x => { x with stage := .second }))).giveBack i .aborted)) ∧
    (a.report = some .granted → a.stage = .first → a.followOn ≠ none → ¬ leaving →
      ends (u.mapTable (fun t => t.modifySlot i (fun sl => { sl with
        phase := .waiting
        acquire := some { a with stage := .second, patience := 0, lost := 0, report := none } })),
        (i, none) :: u.table.behind i)) ∧
    (a.report = some .refused → a.wait = false → ends (u.failAcquire i .busy)) ∧
    (a.report = some .refused → a.wait = true → leaving → ends (u.failAcquire i .aborted)) ∧
    (a.report = some .refused → a.wait = true → ¬ leaving → ends again) ∧
    (a.report = some .lostCircuit → a.lost = c.retry.toNat → ends (u.failAcquire i .lost)) ∧
    (a.report = some .lostCircuit → a.lost ≠ c.retry.toNat → leaving → ends (u.failAcquire i .aborted)) ∧
    (a.report = some .lostCircuit → a.lost ≠ c.retry.toNat → ¬ leaving → ends again) ∧
    (a.report = some (.withdrawn .cancelled) → ends (u.failAcquire i .cancelled)) ∧
    (a.report = some (.withdrawn .leaving) → ends (u.failAcquire i .aborted))

/-- The transmission of a RELEASE takes the entry from the local hold list, offers the resource, and lets the slot that made it go
on: the LEAVE slot takes its next step; any other, a chained ACQUIRE that gives back among them, posts the completion it kept. That
the command brings the end of the frame is the model's choice (log 4); the order of removal and examination is log 12. -/
def Obligations.SentReleaseRemovesTheHold : Prop :=
  ∀ (i : SlotIx) (g : Frame) (b : ReleaseBody) (rest : List OwnFrame) (s : State) (sl : Slot),
    sends { frame := g, owner := some i } rest s → g.body = .release b → s.table.slot i = some sl → sl.phase = .releasing →
    let u : State := { sentHead rest s with
      lease := { s.lease with holds := s.lease.holds.filter (fun e => decide (e.resource ≠ b.resource)) } }
    let v := u.reexamine (u.table.offer b.resource)
    (sl.request = .leave → exec .releaseTransmitted s = .next (v.leaveStep i).testLeaving) ∧
    (sl.request ≠ .leave →
      exec .releaseTransmitted s = .next (State.testLeaving { v with table := v.table.finishKept i }))

/-- END_OF_LEAVING halts the station when the Outbound Queue, the claims and the holds are empty in LEAVING: the LEAVE slot
completes OK, BYPASS is asserted, a sent roll is retired and LEAVE_DONE is raised; else it changes nothing. That the command tests
the conditions is the model's choice (log 15). -/
def Obligations.EndOfLeavingHalts : Prop :=
  ∀ s : State, s.inReset = false →
    (s.station.state = .leaving ∧ s.outbound = [] ∧ s.claim.claims = [] ∧ s.lease.holds = [] →
      ∃ t, exec .endOfLeaving s = .next t ∧ t.station = { s.station with state := .halted } ∧ t.bypassAsserted = true ∧
        t.ring.forwarding = [] ∧ t.ring.linkUp = false ∧ t.ring.transmitter = .silent ∧ t.outbound = [] ∧
        t.roll = { s.roll.retire with timer := none, held := false } ∧ t.lease = s.lease ∧ t.claim = s.claim ∧
        t.probe = { s.probe with phase := .idle } ∧
        (∀ i, s.table.leaveSlot = some i → t.table =
          ((s.finish i .ok .none).raiseNotice (.state .leaveDone .leaving .halted)).table)) ∧
    (¬ (s.station.state = .leaving ∧ s.outbound = [] ∧ s.claim.claims = [] ∧ s.lease.holds = []) →
      exec .endOfLeaving s = .next s)

/-- An origination raises the counter, takes the stamp, queues a ROLL with this station's entry alone, makes the outstanding roll QUEUED
and unsent, its age 0 (the model's choice, log 38), and stops the timer; while this station's ROSTER waits it is held and the timer
stopped. The transmission of a ROSTER makes an origination held for it, or drops it where the station has left the states that originate;
with none held it changes nothing more. HELD_ORIGINATION does the same once no ROSTER waits (log 15). That the command brings the end of
the ROSTER's frame is the model's choice (log 4), and an idle transmitter chooses a ROLL that joins the queue at once (log 33). -/
def Obligations.OriginationQueuesOrHoldsARoll : Prop :=
  (∀ s : State,
      s.makeRoll = { s.enqueue (.roll
          { sequence := s.roll.sequence + 1, stamp := s.station.micros, entries := [s.ownEntry] }) none with
        roll := { s.roll with
          sequence := s.roll.sequence + 1, timer := none, held := false
          outstanding := some { sequence := s.roll.sequence + 1, stamp := s.station.micros, phase := .queued, sent := false,
                                age := 0 } } } ∧
      ((∀ f ∈ s.outbound, f.frame.body.isRoster = false) → s.originate = s.makeRoll) ∧
      ((∃ f ∈ s.outbound, f.frame.body.isRoster = true) →
        s.originate = { s with roll := { s.roll with held := true, timer := none } })) ∧
  (∀ (w : Option SlotIx) (g : Frame) (b : RosterBody) (rest : List OwnFrame) (s : State),
      (sends { frame := g, owner := w } rest s → g.body = .roster b → (∀ h ∈ rest, h.frame.body.isRoster = false) →
        let u := sentHead rest s
        let noneHeld : State := { u with roll := { s.roll with held := false } }
        (s.roll.held = false → exec .rosterTransmitted s = .next u.testLeaving) ∧
        (s.roll.held = true → s.mayOriginate = true → exec .rosterTransmitted s = .next u.makeRoll) ∧
        (s.roll.held = true → s.mayOriginate = false → exec .rosterTransmitted s = .next noneHeld.testLeaving)) ∧
      (s.inReset = false → s.rosterWaits = true → exec .heldOrigination s = .next s) ∧
      (s.inReset = false → s.rosterWaits = false →
        (s.roll.held = false → exec .heldOrigination s = .next s) ∧
        (s.roll.held = true → s.mayOriginate = true → exec .heldOrigination s = atOnce s s.makeRoll) ∧
        (s.roll.held = true → s.mayOriginate = false →
          exec .heldOrigination s = .next { s with roll := { s.roll with held := false } })))

/-! ### Link status and timers -/

/-- The receive link goes UP, from DOWN, at a station on the ring: the receiver is HUNTING and the loss timer starts; JOINING stays,
BROKEN goes to RESYNC, both originate when there is no outstanding roll, and LINK_RESTORED is raised there and in LEAVING. The
receive link goes DOWN, from UP: a frame IN FRAME is discarded and counted; ACTIVE goes to BROKEN with the roll timer stopped,
RESYNC to BROKEN, and LINK_LOST is raised there, in JOINING and in LEAVING. Holds, claims, replica, roster and slots are kept. That
the command brings the fact is the model's choice (log 4); that an UP in ACTIVE or RESYNC moves the link alone is log 34. At each
character time, the loss timer of an UP link restarts at a valid character and else runs on; the settle timer of a DOWN link counts
the valid characters of an unbroken run; off the ring neither moves. The command is due at 200 and at 1,000 character times (isDue). -/
def Obligations.LinkChangesAreTaken : Prop :=
  (∀ s : State, s.inReset = false → s.ring.linkUp = false →
      let u : State := { s with ring := { s.ring with
        linkUp := true, receiver := .hunting, lossTimer := some 0, settleTimer := none } }
      let v : State := { u with station := { s.station with state := .resync } }
      let raised (before after : StationState) (t : State) := t.raiseNotice (.state .linkRestored before after)
      (s.station.state = .joining → s.roll.outstanding = none →
        exec .linkUp s = atOnce s (raised .joining .joining u.originate)) ∧
      (s.station.state = .joining → s.roll.outstanding ≠ none → exec .linkUp s = .next (raised .joining .joining u)) ∧
      (s.station.state = .broken → s.roll.outstanding = none →
        exec .linkUp s = atOnce s (raised .broken .resync v.originate)) ∧
      (s.station.state = .broken → s.roll.outstanding ≠ none → exec .linkUp s = .next (raised .broken .resync v)) ∧
      (s.station.state = .leaving → exec .linkUp s = .next (raised .leaving .leaving u)) ∧
      (s.station.state = .active ∨ s.station.state = .resync → exec .linkUp s = .next u) ∧
      (s.station.state = .unconfigured ∨ s.station.state = .halted → exec .linkUp s = .next s)) ∧
  (∀ s : State, s.inReset = false → s.ring.linkUp = true →
      let count : Half := if s.ring.receiver = .hunting ∨ s.ring.formatCount = 0xFFFF then s.ring.formatCount
        else s.ring.formatCount + 1
      let u : State := { s with ring := { s.ring with
        linkUp := false, receiver := .hunting, lossTimer := none, settleTimer := none, formatCount := count } }
      let broken : State := { u with station := { s.station with state := .broken } }
      let raised (before after : StationState) (t : State) := t.raiseNotice (.state .linkLost before after)
      (s.station.state = .active →
        exec .linkDown s = .next (raised .active .broken { broken with roll := { s.roll with timer := none } })) ∧
      (s.station.state = .resync → exec .linkDown s = .next (raised .resync .broken broken)) ∧
      (s.station.state = .joining → exec .linkDown s = .next (raised .joining .joining u)) ∧
      (s.station.state = .leaving → exec .linkDown s = .next (raised .leaving .leaving u))) ∧
  (∀ s : State,
      let r := s.characterTime.ring
      let c := arriving s
      r.linkUp = s.ring.linkUp ∧
      (s.station.state.onRing = false → r.lossTimer = s.ring.lossTimer ∧ r.settleTimer = s.ring.settleTimer) ∧
      (s.station.state.onRing = true → s.ring.linkUp = true → r.settleTimer = s.ring.settleTimer ∧
        (validChar c → r.lossTimer = some 0) ∧ (¬ validChar c → r.lossTimer = s.ring.lossTimer.map (fun n => n + 1))) ∧
      (s.station.state.onRing = true → s.ring.linkUp = false → r.lossTimer = s.ring.lossTimer ∧
        (∀ n, validChar c → s.ring.settleTimer = some n → r.settleTimer = some (n + 1)) ∧
        (validChar c → s.ring.settleTimer = none → r.settleTimer = some 1) ∧ (¬ validChar c → r.settleTimer = none)))

/-- A CIRCULATING claim whose timer has reached tCTO leaves the list, its SETTLE WITHDRAWN is queued, its slot is told by R53 and
every waiting slot is examined; before tCTO the command changes nothing (log 3). An intent whose age has reached twice tCTO leaves
its record, its holders, mode, note and other intents unchanged, and the resource is offered; before that the command changes
nothing (log 3). Times are counted in character times of 100 ns. -/
def Obligations.ClaimAndIntentExpire : Prop :=
  (∀ (q : Byte) (s : State) (e : ClaimEntry) (c : Configuration), s.inReset = false → s.station.config = some c →
      (s.claim.claims.find? (fun e => decide (e.phase = .circulating ∧ e.sequence = q ∧ c.units.toNat * 100 ≤ e.timer)) =
          some e →
        let u : State := { s with claim := { s.claim with claims := s.claim.claims.erase e } }
        let told : Report := if e.cancel then .withdrawn .cancelled
          else if s.station.state = .leaving then .withdrawn .leaving else .lostCircuit
        let t := (u.enqueue (.settle { resource := e.resource, mode := e.mode, sequence := e.sequence, outcome := .withdrawn })
          (some e.slot)).report e.slot told
        exec (.circuitTimeout q) s = atOnce s (t.reexamine t.table.everyWaiting)) ∧
      ((∀ x ∈ s.claim.claims, ¬ (x.phase = .circulating ∧ x.sequence = q ∧ c.units.toNat * 100 ≤ x.timer)) →
        exec (.circuitTimeout q) s = .next s)) ∧
  (∀ (k : Resource) (x : StationAddr) (s : State) (c : Configuration), s.inReset = false → s.station.config = some c →
      (∀ i, (s.lease.record k).intentOf x = some i → 2 * (c.units.toNat * 100) ≤ i.age →
        let t := s.mapLease (fun l => l.modify k (fun r =>
          { r with intents := r.intents.filter (fun i => decide (i.originator ≠ x)) }))
        exec (.intentExpiry k x) s = atOnce s (t.reexamine (t.table.offer k))) ∧
      ((∀ i, (s.lease.record k).intentOf x = some i → i.age < 2 * (c.units.toNat * 100)) →
        exec (.intentExpiry k x) s = .next s))

/-- The roll timer, at its period of the interval plus the address times tCTO, originates a roll in ACTIVE with none outstanding;
before that, or in another state, the command changes nothing. An outstanding roll that has been CIRCULATING or ABANDONED for three
times tCTO becomes none, retired if it was sent, and a new roll is originated in ACTIVE, RESYNC and JOINING with the link UP, and in
no other state. That a command before its time changes nothing is the model's choice (log 3). Times are counted in character times of
100 ns. -/
def Obligations.RollTimersOriginate : Prop :=
  (∀ (s : State) (c : Configuration), s.inReset = false → s.station.config = some c →
      let period := (c.interval.toNat * 1000 + s.station.address.val * (c.units.toNat * 10)) * 10
      let due := (∃ e, s.roll.timer = some e ∧ period ≤ e) ∧ s.station.state = .active ∧ s.roll.outstanding = none
      (due → exec .rollTimerExpiry s = atOnce s s.originate) ∧ (¬ due → exec .rollTimerExpiry s = .next s)) ∧
  (∀ (s : State) (o : OutstandingRoll) (c : Configuration), s.inReset = false → s.station.config = some c →
      s.roll.outstanding = some o →
      let u : State := { s with roll := { s.roll with
        outstanding := none
        retired := if o.sent then some { sequence := o.sequence, stamp := o.stamp, age := 0 } else s.roll.retired } }
      let may := s.station.state = .active ∨ s.station.state = .resync ∨ (s.station.state = .joining ∧ s.ring.linkUp = true)
      let aged := 3 * (c.units.toNat * 100) ≤ o.age
      (o.phase = .circulating → aged → may → exec .rollLost s = atOnce s u.originate) ∧
      (o.phase = .circulating → aged → ¬ may → exec .rollLost s = .next u) ∧
      (¬ (o.phase = .circulating ∧ aged) → exec .rollLost s = .next s) ∧
      (o.phase = .abandoned → aged → may → exec .abandonedRollExpiry s = atOnce s u.originate) ∧
      (o.phase = .abandoned → aged → ¬ may → exec .abandonedRollExpiry s = .next u) ∧
      (¬ (o.phase = .abandoned ∧ aged) → exec .abandonedRollExpiry s = .next s))

/-- The retired roll becomes none at age three times tCTO, in character times of 100 ns; the probe timer at 65,535 µs writes
PROBE_TIME 65,535, sets PROBE_DONE and makes the phase IDLE; before those times the commands change nothing. That is the model's
choice (log 3). -/
def Obligations.RetiredRollAndProbeTimeOut : Prop :=
  ∀ (s : State) (c : Configuration), s.inReset = false → s.station.config = some c →
    (∀ o, s.roll.retired = some o → 3 * (c.units.toNat * 100) ≤ o.age →
      exec .retiredRollExpiry s = .next { s with roll := { s.roll with retired := none } }) ∧
    ((∀ o, s.roll.retired = some o → o.age < 3 * (c.units.toNat * 100)) → exec .retiredRollExpiry s = .next s) ∧
    (s.probe.phase = .out → 65535 ≤ s.probe.timer →
      exec .probeTimeout s = .next { s with probe := { s.probe with time := 0xFFFF, done := true, phase := .idle } }) ∧
    (s.probe.phase ≠ .out ∨ s.probe.timer < 65535 → exec .probeTimeout s = .next s)

/-! ### Definitions of the protocol -/

/-- Claims and holds on one resource conflict exactly when at least one of the two modes is EXCLUSIVE, and never on different
resources. Claim P precedes claim Q when its patience is greater, or when the patiences are equal and its originator's address is
lower; of two claims of different originators exactly one precedes. -/
def Obligations.ConflictAndPrecedence : Prop :=
  ((∀ a b : Mode, conflicting a b = true ↔ a = .exclusive ∨ b = .exclusive) ∧
    (∀ (b : ClaimBody) (s : State), s.lease.holdConflicts b.resource b.mode = true ↔ holdObjects b s) ∧
    (∀ (k : Resource) (s : State) (e : HoldEntry), s.lease.hold? k = some e → e.resource = k) ∧
    (∀ (k : Resource) (s : State) (e : ClaimEntry), s.claim.claimOn k = some e → e.resource = k)) ∧
  (∀ (p q : Nat) (x y : StationAddr),
      (precedes p x q y = true ↔ q < p ∨ (p = q ∧ x < y)) ∧ (x ≠ y → (precedes p x q y = !precedes q y p x)) ∧
      (∀ (s : State) (o : StationAddr) (b : ClaimBody) (e : ClaimEntry), s.lease.holdConflicts b.resource b.mode = false →
        claimMeets e b s →
        s.stand o b = if precedes e.patience s.station.address (patienceOf b.patience) o then .object else .yield))

/-- A frame of the right form is read back from its own bytes, field for field, spare bits included. The bytes that pass the format
check are the bytes of the frame they are read as: nothing in a frame is lost or read twice. -/
def Obligations.FramesReadBackFromTheirBytes : Prop :=
  (∀ f : Frame, f.wf = true → parseFrame f.bytes = some f ∧ f.bytes.length = f.length) ∧
  (∀ (bytes : List Byte) (f : Frame), parseFrame bytes = some f → f.bytes = bytes ∧ f.wf = true)

/-! ### Laws that every step keeps -/

/-- Every law of `Inv` holds right after reset. -/
def Obligations.ResetIsLawful : Prop := Inv State.reset

/-- R1, R2: every step keeps every replica record within its law: an EXCLUSIVE record has exactly one holder, a SHARED one at least
one, a record without a mode none, no holder has an intent in it, and no station has two intents. A grant removes the holder's intent;
a recorded intent removes the holder. That holders stand in increasing order and intents in increasing order of originator is how the
model writes a set down (log 28), and serves the order that R27 asks of a QUERY. -/
def Obligations.StepKeepsReplicaLawful : Prop :=
  (∀ s t : State, s.replicaLawful → step s = .next t → t.replicaLawful) ∧
  (∀ (r : ResourceRecord) (x : StationAddr) (m : Mode), (r.grant x m).intentOf x = none) ∧
  (∀ (r : ResourceRecord) (i : Intent), i.originator ∉ (r.recordIntent i).holders)

/-- R5, R31, R90: every step keeps the limits on claims and holds, the distinctness of their resources, and the clients of each
entry. -/
def Obligations.StepKeepsHoldsLawful : Prop :=
  ∀ s t : State, s.holdsLawful → step s = .next t → t.holdsLawful

/-- R105, R190, R191: every step keeps the completion queue within 16 records and 14 completion records, and the read position
within the head record. -/
def Obligations.StepKeepsQueueAndReadPosition : Prop :=
  ∀ s t : State, s.queueWithinLimits → s.readPositionWithin → step s = .next t →
    t.queueWithinLimits ∧ t.readPositionWithin

/-- R167, R172, R185: every step keeps the forwarding queue within 4,096 unsent bytes, the relief counter within 8, and the assembly
buffer within its 40 bytes and its declared length. R169: every step keeps the Outbound Queue within its places, at most one frame of
each slot, at most one ROLL or ROSTER and at most one PROBE, and so at most 10 frames; with it go what the makers' own rules keep
(makersInStep), where the holds and claims are lawful. -/
def Obligations.StepKeepsBuffersWithinLimits : Prop :=
  (∀ s t : State, s.forwardingWithinLimits → s.host.assembly.within = true → step s = .next t →
    t.forwardingWithinLimits ∧ t.host.assembly.within = true) ∧
  (∀ s t : State, s.holdsLawful → s.outboundLawful → step s = .next t → t.outboundLawful) ∧
  (∀ s : State, s.outboundLawful → s.outbound.length ≤ 10 ∧
    ∀ i : SlotIx, (s.outbound.filter (fun f => decide (f.owner = some i))).length ≤ 1)

/-- R77: every step keeps the acceptance numbers of the occupied slots 1 up to their count, each once. -/
def Obligations.StepKeepsAcceptanceNumbers : Prop :=
  ∀ s t : State, s.table.numbered → step s = .next t → t.table.numbered

/-- R152: no step leaves the end of LEAVING waiting: the change that meets its three conditions takes it. The test stands at the end
of the change (log 15). -/
def Obligations.StepKeepsTheEndOfLeavingTaken : Prop :=
  ∀ s t : State, s.leavingDone = false → step s = .next t → t.leavingDone = false

/-- R137, R139: no command but a release of reset changes the station address, and none but a reset or a CONFIGURE that proceeds in
UNCONFIGURED changes the configuration values; every command leaves the receive line (log 5) and the queue of commands (log 1) alone,
both of them the model's own. That a release of reset alone brings the straps is the model's reading (log 18). -/
def Obligations.CommandsKeepAddressAndConfiguration : Prop :=
  ∀ (c : Instr) (s t : State), exec c s = .next t →
    t.pending = s.pending ∧ t.rxLine = s.rxLine ∧
    (isPower c = false → t.station.address = s.station.address ∧ t.station.micros = s.station.micros ∧
      t.straps = s.straps ∧ t.porTimer = s.porTimer ∧ t.inReset = s.inReset ∧
      (t.station.config ≠ s.station.config → s.station.state = .unconfigured ∧ t.station.state = .joining))
end

