-- ==== Sys2Proof/Laws/Lease.lean ====
section
/-! SUPPORT. The changes of replica records and of the local hold list: what they leave, and that each record change keeps the law of R2. -/

namespace Sys2Proof.Machine

/-! ### Sets -/

theorem mem_insertAddr (x y : StationAddr) (l : List StationAddr) : y ∈ insertAddr x l ↔ y = x ∨ y ∈ l := by
  induction l with
  | nil => simp [insertAddr]
  | cons a l ih => simp only [insertAddr]; split <;> (try split) <;> simp_all <;> grind

theorem insertAddr_ne_nil (x : StationAddr) (l : List StationAddr) : insertAddr x l ≠ [] := by
  cases l with
  | nil => simp [insertAddr]
  | cons a l => simp only [insertAddr]; split <;> (try split) <;> simp

theorem mem_insertIntent (i : Intent) (l : List Intent) : i ∈ insertIntent i l := by
  induction l with
  | nil => simp [insertIntent]
  | cons a l ih => simp only [insertIntent]; split <;> (try split) <;> simp_all

theorem mem_insertIntent_imp (i j : Intent) (l : List Intent) (h : j ∈ insertIntent i l) : j = i ∨ j ∈ l := by
  induction l with
  | nil => simpa [insertIntent] using h
  | cons a l ih => simp only [insertIntent] at h; split at h <;> (try split at h) <;> simp_all <;> grind

theorem sorted_insertAddr (x : StationAddr) (l : List StationAddr) (h : l.Pairwise (· < ·)) : (insertAddr x l).Pairwise (· < ·) := by
  induction l with
  | nil => simp [insertAddr]
  | cons a l ih =>
    rw [List.pairwise_cons] at h
    simp only [insertAddr]; split
    · rename_i hx
      exact List.pairwise_cons.2 ⟨fun y hy => by
        rcases List.mem_cons.1 hy with rfl | hy
        · exact hx
        · exact Fin.lt_trans hx (h.1 y hy), List.pairwise_cons.2 h⟩
    · split
      · exact List.pairwise_cons.2 h
      · rename_i h1 h2
        refine List.pairwise_cons.2 ⟨fun y hy => ?_, ih h.2⟩
        rcases (mem_insertAddr x y l).1 hy with rfl | hy
        · exact (Fin.lt_or_lt_of_ne h2).resolve_left h1
        · exact h.1 y hy

theorem sorted_insertIntent (i : Intent) (l : List Intent) (h : (l.map Intent.originator).Pairwise (· < ·)) :
    ((insertIntent i l).map Intent.originator).Pairwise (· < ·) := by
  induction l with
  | nil => simp [insertIntent]
  | cons a l ih =>
    rw [List.map_cons, List.pairwise_cons] at h
    simp only [insertIntent]; split
    · rename_i hx
      exact List.pairwise_cons.2 ⟨fun y hy => by
        rcases List.mem_cons.1 hy with rfl | hy
        · exact hx
        · exact Fin.lt_trans hx (h.1 y hy), List.pairwise_cons.2 h⟩
    · split
      · rename_i h2
        rw [List.map_cons, h2]; exact List.pairwise_cons.2 h
      · rename_i h1 h2
        refine List.pairwise_cons.2 ⟨fun y hy => ?_, ih h.2⟩
        obtain ⟨j, hj, rfl⟩ := List.mem_map.1 hy
        rcases mem_insertIntent_imp _ _ _ hj with rfl | hj
        · exact (Fin.lt_or_lt_of_ne h2).resolve_left h1
        · exact h.1 _ (List.mem_map_of_mem hj)

/-! ### One record keeps its law (R1, R2) -/

namespace ResourceRecord

theorem lawful_initial : lawful initial := by simp [lawful, sorted, initial]

theorem lawful_dropIntent (x : StationAddr) (r : ResourceRecord) (h : r.lawful) : (r.dropIntent x).lawful := by
  obtain ⟨h1, h2, h3, h4, h5⟩ := h
  exact ⟨h1, h2, fun i hi => h3 i (List.mem_filter.1 hi).1, h4, h5.sublist (List.filter_sublist.map _)⟩

theorem lawful_dropHolder (x : StationAddr) (r : ResourceRecord) (h : r.lawful) : (r.dropHolder x).lawful := by
  obtain ⟨h1, h2, h3, h4, h5⟩ := h
  refine ⟨?_, ?_, ?_, h4.sublist List.filter_sublist, h5⟩
  · simp only [dropHolder]; split
    · rename_i e; exact ⟨fun _ => e, fun _ => rfl⟩
    · rename_i e
      refine ⟨fun hm => ?_, fun hn => absurd hn e⟩
      rw [h1.1 hm]; rfl
  · simp only [dropHolder]; split
    · intro hm; cases hm
    · rename_i e
      intro hm
      have hl := h2 hm
      have hle := List.length_filter_le (fun y => decide (y ≠ x)) r.holders
      have hpos := List.length_pos_iff.2 e
      omega
  · intro i hi hm
    exact h3 i hi (List.mem_filter.1 hm).1

theorem lawful_recordIntent (i : Intent) (r : ResourceRecord) (h : r.lawful) : (r.recordIntent i).lawful := by
  obtain ⟨h1, h2, h3, h4, h5⟩ := lawful_dropHolder i.originator r h
  refine ⟨h1, h2, ?_, h4, sorted_insertIntent i _ h5⟩
  intro j hj
  rcases mem_insertIntent_imp _ _ _ hj with rfl | hj
  · simp [recordIntent, dropHolder]
  · exact h3 j hj

theorem lawful_grant (x : StationAddr) (m : Mode) (r : ResourceRecord) (h : r.lawful) : (r.grant x m).lawful := by
  obtain ⟨h1, h2, h3, h4, h5⟩ := h
  have hi : ∀ i ∈ (r.dropIntent x).intents, i ∈ r.intents ∧ i.originator ≠ x := by
    intro i hi; simpa [dropIntent] using hi
  refine ⟨?_, ?_, ?_, ?_, h5.sublist (List.filter_sublist.map _)⟩
  · simp only [grant]; cases m
    · refine ⟨fun hm => (nomatch hm), fun hn => ?_⟩
      exfalso; revert hn; simp only; split
      · simp
      · exact insertAddr_ne_nil _ _
    · simp
  · simp only [grant]; cases m <;> simp
  · intro i him
    have ⟨a, b⟩ := hi i him
    simp only [grant]; cases m
    · simp only; split
      · simpa using b
      · simp only [mem_insertAddr, not_or]; exact ⟨b, h3 i a⟩
    · simpa using b
  · simp only [grant]; cases m
    · simp only; split
      · simp
      · exact sorted_insertAddr x _ h4
    · simp

theorem lawful_releaseNote (m : Mode) (n : List Byte) (r : ResourceRecord) (h : r.lawful) : (r.releaseNote m n).lawful := by
  cases m <;> exact h

theorem lawful_release (x : StationAddr) (m : Mode) (n : List Byte) (r : ResourceRecord) (h : r.lawful) :
    (r.release x m n).lawful := lawful_releaseNote m n _ (lawful_dropHolder x r h)

theorem lawful_reclaim (zs : List StationAddr) (r : ResourceRecord) (h : r.lawful) : (r.reclaim zs).lawful := by
  unfold reclaim
  induction zs generalizing r with
  | nil => exact h
  | cons z zs ih => exact ih _ (lawful_dropIntent z _ (lawful_dropHolder z r h))

theorem lawful_cleared (r : ResourceRecord) : (r.cleared).lawful := by simp [lawful, sorted, cleared]

theorem lawful_tick (r : ResourceRecord) (h : r.lawful) : (r.tick).lawful := by
  obtain ⟨h1, h2, h3, h4, h5⟩ := h
  refine ⟨h1, h2, ?_, h4, by simpa [tick, Function.comp_def] using h5⟩
  intro i hi
  simp only [tick, List.mem_map] at hi
  obtain ⟨j, hj, rfl⟩ := hi
  exact h3 j hj

theorem lawful_pend (y : StationAddr) (m : Mode) (q : Byte) (r : ResourceRecord) (h : r.lawful) : (r.pend y m q).lawful := by
  unfold pend; split
  · exact h
  · rename_i hc
    obtain ⟨h1, h2, h3, h4, h5⟩ := h
    refine ⟨h1, h2, ?_, h4, sorted_insertIntent _ _ h5⟩
    intro i hi
    rcases mem_insertIntent_imp _ _ _ hi with rfl | hi
    · simpa using hc
    · exact h3 i hi

end ResourceRecord

/-! ### The table -/

namespace LeaseTable

theorem record_modify (k j : Resource) (f : ResourceRecord → ResourceRecord) (l : LeaseTable) :
    (l.modify k f).record j = if k = j then f (l.record k) else l.record j := by
  simp only [modify, record, Fin.getElem_fin, Vector.getElem_set, Fin.ext_iff]

theorem record_mapRecords (j : Resource) (f : ResourceRecord → ResourceRecord) (l : LeaseTable) :
    (l.mapRecords f).record j = f (l.record j) := by
  simp [mapRecords, record]

@[simp] theorem holds_modify (k : Resource) (f : ResourceRecord → ResourceRecord) (l : LeaseTable) :
    (l.modify k f).holds = l.holds := rfl
@[simp] theorem holds_mapRecords (f : ResourceRecord → ResourceRecord) (l : LeaseTable) : (l.mapRecords f).holds = l.holds := rfl
@[simp] theorem record_modifyHold (k j : Resource) (f : HoldEntry → HoldEntry) (l : LeaseTable) :
    (l.modifyHold k f).record j = l.record j := rfl
@[simp] theorem record_removeHold (k j : Resource) (l : LeaseTable) : (l.removeHold k).record j = l.record j := rfl

/-- Every record of the table is lawful. -/
def Lawful (l : LeaseTable) : Prop := ∀ k, (l.record k).lawful

theorem Lawful.modify {l : LeaseTable} (h : l.Lawful) (k : Resource) (f : ResourceRecord → ResourceRecord)
    (hf : ∀ r : ResourceRecord, r.lawful → (f r).lawful) : (l.modify k f).Lawful := by
  intro j; rw [record_modify]; split
  · exact hf _ (h k)
  · exact h j

theorem Lawful.mapRecords {l : LeaseTable} (f : ResourceRecord → ResourceRecord)
    (hf : ∀ k, (f (l.record k)).lawful) : (l.mapRecords f).Lawful := by
  intro j; rw [record_mapRecords]; exact hf j

theorem Lawful.initial : Lawful LeaseTable.initial := by
  intro k
  have : (LeaseTable.initial).record k = ResourceRecord.initial := by simp [LeaseTable.initial, record]
  rw [this]; exact ResourceRecord.lawful_initial

theorem Lawful.grantAll (y : StationAddr) (hs : List (Resource × Mode)) {l : LeaseTable} (h : l.Lawful) :
    (l.grantAll y hs).Lawful := by
  unfold LeaseTable.grantAll
  induction hs generalizing l with
  | nil => exact h
  | cons a hs ih => exact ih (h.modify _ _ (ResourceRecord.lawful_grant y a.2))

theorem Lawful.pendAll (y : StationAddr) (ps : List (Byte × Byte)) {l : LeaseTable} (h : l.Lawful) : (l.pendAll y ps).Lawful := by
  unfold LeaseTable.pendAll
  induction ps generalizing l with
  | nil => exact h
  | cons a ps ih => exact ih (h.modify _ _ (ResourceRecord.lawful_pend y _ _))

theorem Lawful.foldl {α : Type} (g : LeaseTable → α → LeaseTable) (hg : ∀ (l : LeaseTable) a, l.Lawful → (g l a).Lawful) (as : List α)
    {l : LeaseTable} (h : l.Lawful) : (as.foldl g l).Lawful := by
  induction as generalizing l with
  | nil => exact h
  | cons a as ih => exact ih (hg l a h)

/-- The rebuild makes lawful records, whatever stood before (R19 to R21). -/
theorem Lawful.rebuild (self : StationAddr) (es : List RollEntry) (l : LeaseTable) : (l.rebuild self es).Lawful := by
  unfold LeaseTable.rebuild
  refine Lawful.foldl _ (fun l e h => h.pendAll _ _) _ (Lawful.foldl _ (fun l e h => h.grantAll _ _) _ (Lawful.grantAll _ _ ?_))
  exact Lawful.mapRecords _ (fun k => ResourceRecord.lawful_cleared _)

theorem holds_foldl {α : Type} (g : LeaseTable → α → LeaseTable) (hg : ∀ l a, (g l a).holds = l.holds) (as : List α) (l : LeaseTable) :
    (as.foldl g l).holds = l.holds := by
  induction as generalizing l with
  | nil => rfl
  | cons a as ih => exact (ih (g l a)).trans (hg l a)

@[simp] theorem holds_grantAll (y : StationAddr) (hs : List (Resource × Mode)) (l : LeaseTable) :
    (l.grantAll y hs).holds = l.holds := by
  unfold LeaseTable.grantAll; exact holds_foldl _ (fun _ _ => holds_modify ..) hs l
@[simp] theorem holds_pendAll (y : StationAddr) (ps : List (Byte × Byte)) (l : LeaseTable) :
    (l.pendAll y ps).holds = l.holds := by
  unfold LeaseTable.pendAll; exact holds_foldl _ (fun _ _ => holds_modify ..) ps l

/-- The rebuild keeps the local hold list. -/
@[simp] theorem holds_rebuild (self : StationAddr) (es : List RollEntry) (l : LeaseTable) :
    (l.rebuild self es).holds = l.holds := by
  unfold LeaseTable.rebuild
  rw [holds_foldl _ (fun _ _ => holds_pendAll ..), holds_foldl _ (fun _ _ => holds_grantAll ..), holds_grantAll]; rfl

/-- The entry found for a resource is of that resource. -/
theorem hold?_resource (k : Resource) (l : LeaseTable) (e : HoldEntry) (h : l.hold? k = some e) : e.resource = k ∧ e ∈ l.holds :=
  ⟨by simpa using List.find?_some h, List.mem_of_find?_eq_some h⟩

/-- The entry found in HELD phase is of that resource and phase. -/
theorem heldEntry?_spec (k : Resource) (l : LeaseTable) (e : HoldEntry) (h : l.heldEntry? k = some e) :
    e.resource = k ∧ e.phase = .held ∧ e ∈ l.holds := by
  have := List.find?_some h
  simp only [Bool.and_eq_true, decide_eq_true_eq] at this
  exact ⟨this.1, this.2, List.mem_of_find?_eq_some h⟩

end LeaseTable
end Sys2Proof.Machine
end

