-- ==== Sys2Proof/Laws/Requests.lean ====
section
/-! SUPPORT. What the operations on the Request Table do to each slot, to the queue, to the fault flags and to the posting order. -/

namespace Sys2Proof.Machine
namespace RequestTable

/-! ### Slots written and changed -/

theorem slot_setSlot (i j : SlotIx) (o : Option Slot) (t : RequestTable) :
    (t.setSlot i o).slot j = if j = i then o else t.slot j := by
  by_cases h : j = i
  · subst h; simp [slot, setSlot]
  · have hn : (i : Nat) ≠ j := fun e => h (Fin.ext e.symm)
    simp [slot, setSlot, h, hn]

@[simp] theorem setSlot_queue (i : SlotIx) (o : Option Slot) (t : RequestTable) : (t.setSlot i o).queue = t.queue := rfl
@[simp] theorem setSlot_faults (i : SlotIx) (o : Option Slot) (t : RequestTable) : (t.setSlot i o).faults = t.faults := rfl
@[simp] theorem setSlot_posting (i : SlotIx) (o : Option Slot) (t : RequestTable) : (t.setSlot i o).posting = t.posting := rfl

theorem slot_modifySlot (i j : SlotIx) (f : Slot → Slot) (t : RequestTable) :
    (t.modifySlot i f).slot j = if j = i then (t.slot i).map f else t.slot j := by
  unfold modifySlot
  split
  · rename_i h; split
    · rename_i e; rw [e, h]; rfl
    · rfl
  · rename_i sl h; rw [slot_setSlot, h]; rfl

@[simp] theorem modifySlot_queue (i : SlotIx) (f : Slot → Slot) (t : RequestTable) : (t.modifySlot i f).queue = t.queue := by
  unfold modifySlot; split <;> rfl
@[simp] theorem modifySlot_faults (i : SlotIx) (f : Slot → Slot) (t : RequestTable) : (t.modifySlot i f).faults = t.faults := by
  unfold modifySlot; split <;> rfl
@[simp] theorem modifySlot_posting (i : SlotIx) (f : Slot → Slot) (t : RequestTable) : (t.modifySlot i f).posting = t.posting := by
  unfold modifySlot; split <;> rfl

/-- A change of a slot that is not there changes nothing. -/
theorem modifySlot_free (i : SlotIx) (f : Slot → Slot) (t : RequestTable) (h : t.slot i = none) : t.modifySlot i f = t := by
  simp [modifySlot, h]

/-! ### Slots freed -/

/-- What the freeing of a slot with acceptance number n leaves of another. -/
def lower (n : Nat) (x : Slot) : Slot := if n < x.accept then { x with accept := x.accept - 1 } else x

theorem slot_freeSlot (i j : SlotIx) (t : RequestTable) (sl : Slot) (h : t.slot i = some sl) :
    (t.freeSlot i).slot j = if j = i then none else (t.slot j).map (lower sl.accept) := by
  simp only [freeSlot, h]
  by_cases e : j = i
  · subst e; simp [slot]
  · have hn : (i : Nat) ≠ j := fun x => e (Fin.ext x.symm)
    simp only [slot, e, Fin.getElem_fin, Vector.getElem_set, hn, if_false, Vector.getElem_map]
    rfl

@[simp] theorem freeSlot_queue (i : SlotIx) (t : RequestTable) : (t.freeSlot i).queue = t.queue := by
  unfold freeSlot; split <;> rfl
@[simp] theorem freeSlot_faults (i : SlotIx) (t : RequestTable) : (t.freeSlot i).faults = t.faults := by
  unfold freeSlot; split <;> rfl
@[simp] theorem freeSlot_posting (i : SlotIx) (t : RequestTable) : (t.freeSlot i).posting = t.posting := by
  unfold freeSlot; split <;> rfl

theorem lowestFree_slot (i : SlotIx) (t : RequestTable) (h : t.lowestFree = some i) : t.slot i = none := by
  have := List.find?_some h
  simpa using this

/-! ### Completions (R106) -/

/-- The queue takes the record: it enters and the slot is freed. -/
theorem post_admitted (i : SlotIx) (c : Completion) (t : RequestTable) (h : t.admits = true) (hp : t.posting = []) :
    t.post i c = { t.freeSlot i with queue := t.queue ++ [.completion c] } := by
  simp [post, h, hp]

/-- The queue does not take the record: the slot keeps it in POSTING. -/
theorem post_waits (i : SlotIx) (c : Completion) (t : RequestTable) (h : ¬ (t.admits = true ∧ t.posting = [])) :
    t.post i c = { t.modifySlot i (fun sl => { sl with phase := .posting, completion := some c }) with
      posting := t.posting ++ [i] } := by
  have : (t.admits && t.posting.isEmpty) = false := by
    cases ha : t.admits <;> cases hp : t.posting <;> simp_all
  simp [post, this]

@[simp] theorem post_faults (i : SlotIx) (c : Completion) (t : RequestTable) : (t.post i c).faults = t.faults := by
  unfold post; split <;> simp

@[simp] theorem finish_faults (i : SlotIx) (st : Status) (c : Content) (t : RequestTable) :
    (t.finish i st c).faults = t.faults := by
  unfold finish; split
  · rfl
  · exact post_faults ..

@[simp] theorem finishKept_faults (i : SlotIx) (t : RequestTable) : (t.finishKept i).faults = t.faults := by
  unfold finishKept; split
  · rfl
  · split
    · rfl
    · exact post_faults ..

/-! ### The other slots -/

/-- Every slot but i is as before, its acceptance number apart. -/
structure OthersKept (i : SlotIx) (t u : RequestTable) : Prop where
  slot : ∀ j, j ≠ i → (u.slot j).map (fun sl => { sl with accept := 0 }) = (t.slot j).map (fun sl => { sl with accept := 0 })

theorem OthersKept.refl (i : SlotIx) (t : RequestTable) : OthersKept i t t := ⟨fun _ _ => rfl⟩

theorem OthersKept.trans {i : SlotIx} {t u v : RequestTable} (h : OthersKept i t u) (g : OthersKept i u v) :
    OthersKept i t v := ⟨fun j hj => (g.slot j hj).trans (h.slot j hj)⟩

theorem OthersKept.modifySlot (i : SlotIx) (f : Slot → Slot) (t : RequestTable) : OthersKept i t (t.modifySlot i f) := by
  refine ⟨fun j hj => ?_⟩; rw [slot_modifySlot, if_neg hj]

theorem OthersKept.post (i : SlotIx) (c : Completion) (t : RequestTable) : OthersKept i t (t.post i c) := by
  by_cases h : t.admits = true ∧ t.posting = []
  · rw [post_admitted i c t h.1 h.2]
    refine ⟨fun j hj => ?_⟩
    cases hs : t.slot i with
    | none => simp only [freeSlot, hs]; rfl
    | some sl =>
      have : ({ t.freeSlot i with queue := t.queue ++ [.completion c] } : RequestTable).slot j = (t.freeSlot i).slot j := rfl
      rw [this, slot_freeSlot i j t sl hs, if_neg hj]
      cases t.slot j with
      | none => rfl
      | some x => simp only [lower, Option.map_some]; split <;> rfl
  · rw [post_waits i c t h]
    exact ⟨(OthersKept.modifySlot i _ t).slot⟩

theorem OthersKept.finish (i : SlotIx) (st : Status) (c : Content) (t : RequestTable) : OthersKept i t (t.finish i st c) := by
  unfold RequestTable.finish; split
  · exact .refl ..
  · exact .post ..

/-! ### Posting -/

theorem admits_iff (t : RequestTable) : t.admits = true ↔ t.completions < 14 ∧ t.queue.length < 16 := by
  unfold admits; rw [Bool.and_eq_true, decide_eq_true_iff, decide_eq_true_iff]; exact Iff.rfl

/-- With no slot in POSTING, or a queue that takes no completion record, nothing posts. -/
theorem postNext_stuck (t : RequestTable) (h : t.posting = [] ∨ ¬ t.admits = true) : t.postNext = t := by
  unfold postNext; split
  · rfl
  · rename_i hp
    rcases h with h | h
    · rw [h] at hp; cases hp
    · rw [if_neg h]

/-! ### The slots behind a slot -/

/-- The slots behind a slot are found by acceptance numbers and by the resources that slots stand and wait for alone. -/
theorem behind_congr (i : SlotIx) (t u : RequestTable)
    (h : ∀ j, (u.slot j).map (fun x => (x.accept, x.standsFor, x.waitsFor)) =
      (t.slot j).map (fun x => (x.accept, x.standsFor, x.waitsFor))) : u.behind i = t.behind i := by
  have ho : u.order = t.order := by
    unfold order
    have : (fun i => (u.slot i).map (fun sl => (sl.accept, i))) = (fun i => (t.slot i).map (fun sl => (sl.accept, i))) := by
      funext j
      have := congrArg (Option.map (fun p => (p.1, j))) (h j)
      simpa [Option.map_map, Function.comp_def] using this
    rw [this]
  have hw (k : Resource) : u.waitingFor k = t.waitingFor k := by
    unfold waitingFor
    rw [ho]; congr 1; funext j
    have := h j
    cases hu : u.slot j <;> cases ht : t.slot j <;> simp_all
  unfold behind
  have hi := h i
  cases hu : u.slot i <;> cases ht : t.slot i <;> simp_all
  rename_i x y
  cases y.standsFor with
  | none => rfl
  | some k =>
    dsimp only
    congr 1; congr 1; funext j
    have := h j
    cases hu : u.slot j <;> cases ht : t.slot j <;> simp_all

end RequestTable
end Sys2Proof.Machine
end

