-- ==== Sys2Proof/Laws/State.lean ====
section
/-! SUPPORT. The fields after each named update of State, by field: what the update leaves unchanged and what it writes. -/

namespace Sys2Proof.Machine

/-! ### mapTable -/

@[simp] theorem State.mapTable_supplyLow (f : RequestTable → RequestTable) (s : State) :
    (s.mapTable f).supplyLow = s.supplyLow := rfl
@[simp] theorem State.mapTable_resetLow (f : RequestTable → RequestTable) (s : State) :
    (s.mapTable f).resetLow = s.resetLow := rfl
@[simp] theorem State.mapTable_porTimer (f : RequestTable → RequestTable) (s : State) :
    (s.mapTable f).porTimer = s.porTimer := rfl
@[simp] theorem State.mapTable_straps (f : RequestTable → RequestTable) (s : State) :
    (s.mapTable f).straps = s.straps := rfl
@[simp] theorem State.mapTable_rxLine (f : RequestTable → RequestTable) (s : State) :
    (s.mapTable f).rxLine = s.rxLine := rfl
@[simp] theorem State.mapTable_station (f : RequestTable → RequestTable) (s : State) :
    (s.mapTable f).station = s.station := rfl
@[simp] theorem State.mapTable_lease (f : RequestTable → RequestTable) (s : State) :
    (s.mapTable f).lease = s.lease := rfl
@[simp] theorem State.mapTable_claim (f : RequestTable → RequestTable) (s : State) :
    (s.mapTable f).claim = s.claim := rfl
@[simp] theorem State.mapTable_table (f : RequestTable → RequestTable) (s : State) :
    (s.mapTable f).table = f s.table := rfl
@[simp] theorem State.mapTable_roll (f : RequestTable → RequestTable) (s : State) :
    (s.mapTable f).roll = s.roll := rfl
@[simp] theorem State.mapTable_ring (f : RequestTable → RequestTable) (s : State) :
    (s.mapTable f).ring = s.ring := rfl
@[simp] theorem State.mapTable_outbound (f : RequestTable → RequestTable) (s : State) :
    (s.mapTable f).outbound = s.outbound := rfl
@[simp] theorem State.mapTable_probe (f : RequestTable → RequestTable) (s : State) :
    (s.mapTable f).probe = s.probe := rfl
@[simp] theorem State.mapTable_host (f : RequestTable → RequestTable) (s : State) :
    (s.mapTable f).host = s.host := rfl
@[simp] theorem State.mapTable_pending (f : RequestTable → RequestTable) (s : State) :
    (s.mapTable f).pending = s.pending := rfl

/-! ### mapLease -/

@[simp] theorem State.mapLease_supplyLow (f : LeaseTable → LeaseTable) (s : State) :
    (s.mapLease f).supplyLow = s.supplyLow := rfl
@[simp] theorem State.mapLease_resetLow (f : LeaseTable → LeaseTable) (s : State) :
    (s.mapLease f).resetLow = s.resetLow := rfl
@[simp] theorem State.mapLease_porTimer (f : LeaseTable → LeaseTable) (s : State) :
    (s.mapLease f).porTimer = s.porTimer := rfl
@[simp] theorem State.mapLease_straps (f : LeaseTable → LeaseTable) (s : State) :
    (s.mapLease f).straps = s.straps := rfl
@[simp] theorem State.mapLease_rxLine (f : LeaseTable → LeaseTable) (s : State) :
    (s.mapLease f).rxLine = s.rxLine := rfl
@[simp] theorem State.mapLease_station (f : LeaseTable → LeaseTable) (s : State) :
    (s.mapLease f).station = s.station := rfl
@[simp] theorem State.mapLease_lease (f : LeaseTable → LeaseTable) (s : State) :
    (s.mapLease f).lease = f s.lease := rfl
@[simp] theorem State.mapLease_claim (f : LeaseTable → LeaseTable) (s : State) :
    (s.mapLease f).claim = s.claim := rfl
@[simp] theorem State.mapLease_table (f : LeaseTable → LeaseTable) (s : State) :
    (s.mapLease f).table = s.table := rfl
@[simp] theorem State.mapLease_roll (f : LeaseTable → LeaseTable) (s : State) :
    (s.mapLease f).roll = s.roll := rfl
@[simp] theorem State.mapLease_ring (f : LeaseTable → LeaseTable) (s : State) :
    (s.mapLease f).ring = s.ring := rfl
@[simp] theorem State.mapLease_outbound (f : LeaseTable → LeaseTable) (s : State) :
    (s.mapLease f).outbound = s.outbound := rfl
@[simp] theorem State.mapLease_probe (f : LeaseTable → LeaseTable) (s : State) :
    (s.mapLease f).probe = s.probe := rfl
@[simp] theorem State.mapLease_host (f : LeaseTable → LeaseTable) (s : State) :
    (s.mapLease f).host = s.host := rfl
@[simp] theorem State.mapLease_pending (f : LeaseTable → LeaseTable) (s : State) :
    (s.mapLease f).pending = s.pending := rfl

/-! ### mapRoll -/

@[simp] theorem State.mapRoll_supplyLow (f : RollUnit → RollUnit) (s : State) :
    (s.mapRoll f).supplyLow = s.supplyLow := rfl
@[simp] theorem State.mapRoll_resetLow (f : RollUnit → RollUnit) (s : State) :
    (s.mapRoll f).resetLow = s.resetLow := rfl
@[simp] theorem State.mapRoll_porTimer (f : RollUnit → RollUnit) (s : State) :
    (s.mapRoll f).porTimer = s.porTimer := rfl
@[simp] theorem State.mapRoll_straps (f : RollUnit → RollUnit) (s : State) :
    (s.mapRoll f).straps = s.straps := rfl
@[simp] theorem State.mapRoll_rxLine (f : RollUnit → RollUnit) (s : State) :
    (s.mapRoll f).rxLine = s.rxLine := rfl
@[simp] theorem State.mapRoll_station (f : RollUnit → RollUnit) (s : State) :
    (s.mapRoll f).station = s.station := rfl
@[simp] theorem State.mapRoll_lease (f : RollUnit → RollUnit) (s : State) :
    (s.mapRoll f).lease = s.lease := rfl
@[simp] theorem State.mapRoll_claim (f : RollUnit → RollUnit) (s : State) :
    (s.mapRoll f).claim = s.claim := rfl
@[simp] theorem State.mapRoll_table (f : RollUnit → RollUnit) (s : State) :
    (s.mapRoll f).table = s.table := rfl
@[simp] theorem State.mapRoll_roll (f : RollUnit → RollUnit) (s : State) :
    (s.mapRoll f).roll = f s.roll := rfl
@[simp] theorem State.mapRoll_ring (f : RollUnit → RollUnit) (s : State) :
    (s.mapRoll f).ring = s.ring := rfl
@[simp] theorem State.mapRoll_outbound (f : RollUnit → RollUnit) (s : State) :
    (s.mapRoll f).outbound = s.outbound := rfl
@[simp] theorem State.mapRoll_probe (f : RollUnit → RollUnit) (s : State) :
    (s.mapRoll f).probe = s.probe := rfl
@[simp] theorem State.mapRoll_host (f : RollUnit → RollUnit) (s : State) :
    (s.mapRoll f).host = s.host := rfl
@[simp] theorem State.mapRoll_pending (f : RollUnit → RollUnit) (s : State) :
    (s.mapRoll f).pending = s.pending := rfl

/-! ### enter -/

@[simp] theorem State.enter_supplyLow (st : StationState) (s : State) :
    (s.enter st).supplyLow = s.supplyLow := rfl
@[simp] theorem State.enter_resetLow (st : StationState) (s : State) :
    (s.enter st).resetLow = s.resetLow := rfl
@[simp] theorem State.enter_porTimer (st : StationState) (s : State) :
    (s.enter st).porTimer = s.porTimer := rfl
@[simp] theorem State.enter_straps (st : StationState) (s : State) :
    (s.enter st).straps = s.straps := rfl
@[simp] theorem State.enter_rxLine (st : StationState) (s : State) :
    (s.enter st).rxLine = s.rxLine := rfl
@[simp] theorem State.enter_station (st : StationState) (s : State) :
    (s.enter st).station = { s.station with state := st } := rfl
@[simp] theorem State.enter_lease (st : StationState) (s : State) :
    (s.enter st).lease = s.lease := rfl
@[simp] theorem State.enter_claim (st : StationState) (s : State) :
    (s.enter st).claim = s.claim := rfl
@[simp] theorem State.enter_table (st : StationState) (s : State) :
    (s.enter st).table = s.table := rfl
@[simp] theorem State.enter_roll (st : StationState) (s : State) :
    (s.enter st).roll = s.roll := rfl
@[simp] theorem State.enter_ring (st : StationState) (s : State) :
    (s.enter st).ring = s.ring := rfl
@[simp] theorem State.enter_outbound (st : StationState) (s : State) :
    (s.enter st).outbound = s.outbound := rfl
@[simp] theorem State.enter_probe (st : StationState) (s : State) :
    (s.enter st).probe = s.probe := rfl
@[simp] theorem State.enter_host (st : StationState) (s : State) :
    (s.enter st).host = s.host := rfl
@[simp] theorem State.enter_pending (st : StationState) (s : State) :
    (s.enter st).pending = s.pending := rfl

/-! ### sampleStraps -/

@[simp] theorem State.sampleStraps_supplyLow (a : StationAddr) (s : State) :
    (s.sampleStraps a).supplyLow = s.supplyLow := rfl
@[simp] theorem State.sampleStraps_resetLow (a : StationAddr) (s : State) :
    (s.sampleStraps a).resetLow = s.resetLow := rfl
@[simp] theorem State.sampleStraps_porTimer (a : StationAddr) (s : State) :
    (s.sampleStraps a).porTimer = s.porTimer := rfl
@[simp] theorem State.sampleStraps_straps (a : StationAddr) (s : State) :
    (s.sampleStraps a).straps = a := rfl
@[simp] theorem State.sampleStraps_rxLine (a : StationAddr) (s : State) :
    (s.sampleStraps a).rxLine = s.rxLine := rfl
@[simp] theorem State.sampleStraps_station (a : StationAddr) (s : State) :
    (s.sampleStraps a).station = { s.station with address := a } := rfl
@[simp] theorem State.sampleStraps_lease (a : StationAddr) (s : State) :
    (s.sampleStraps a).lease = s.lease := rfl
@[simp] theorem State.sampleStraps_claim (a : StationAddr) (s : State) :
    (s.sampleStraps a).claim = s.claim := rfl
@[simp] theorem State.sampleStraps_table (a : StationAddr) (s : State) :
    (s.sampleStraps a).table = s.table := rfl
@[simp] theorem State.sampleStraps_roll (a : StationAddr) (s : State) :
    (s.sampleStraps a).roll = s.roll := rfl
@[simp] theorem State.sampleStraps_ring (a : StationAddr) (s : State) :
    (s.sampleStraps a).ring = s.ring := rfl
@[simp] theorem State.sampleStraps_outbound (a : StationAddr) (s : State) :
    (s.sampleStraps a).outbound = s.outbound := rfl
@[simp] theorem State.sampleStraps_probe (a : StationAddr) (s : State) :
    (s.sampleStraps a).probe = s.probe := rfl
@[simp] theorem State.sampleStraps_host (a : StationAddr) (s : State) :
    (s.sampleStraps a).host = s.host := rfl
@[simp] theorem State.sampleStraps_pending (a : StationAddr) (s : State) :
    (s.sampleStraps a).pending = s.pending := rfl

/-! ### setRefused -/

@[simp] theorem State.setRefused_supplyLow (s : State) :
    (s.setRefused).supplyLow = s.supplyLow := rfl
@[simp] theorem State.setRefused_resetLow (s : State) :
    (s.setRefused).resetLow = s.resetLow := rfl
@[simp] theorem State.setRefused_porTimer (s : State) :
    (s.setRefused).porTimer = s.porTimer := rfl
@[simp] theorem State.setRefused_straps (s : State) :
    (s.setRefused).straps = s.straps := rfl
@[simp] theorem State.setRefused_rxLine (s : State) :
    (s.setRefused).rxLine = s.rxLine := rfl
@[simp] theorem State.setRefused_station (s : State) :
    (s.setRefused).station = s.station := rfl
@[simp] theorem State.setRefused_lease (s : State) :
    (s.setRefused).lease = s.lease := rfl
@[simp] theorem State.setRefused_claim (s : State) :
    (s.setRefused).claim = s.claim := rfl
@[simp] theorem State.setRefused_table (s : State) :
    (s.setRefused).table = s.table := rfl
@[simp] theorem State.setRefused_roll (s : State) :
    (s.setRefused).roll = s.roll := rfl
@[simp] theorem State.setRefused_ring (s : State) :
    (s.setRefused).ring = s.ring := rfl
@[simp] theorem State.setRefused_outbound (s : State) :
    (s.setRefused).outbound = s.outbound := rfl
@[simp] theorem State.setRefused_probe (s : State) :
    (s.setRefused).probe = s.probe := rfl
@[simp] theorem State.setRefused_host (s : State) :
    (s.setRefused).host = { s.host with refused := true } := rfl
@[simp] theorem State.setRefused_pending (s : State) :
    (s.setRefused).pending = s.pending := rfl

/-! ### countFormat -/

@[simp] theorem State.countFormat_supplyLow (s : State) :
    (s.countFormat).supplyLow = s.supplyLow := rfl
@[simp] theorem State.countFormat_resetLow (s : State) :
    (s.countFormat).resetLow = s.resetLow := rfl
@[simp] theorem State.countFormat_porTimer (s : State) :
    (s.countFormat).porTimer = s.porTimer := rfl
@[simp] theorem State.countFormat_straps (s : State) :
    (s.countFormat).straps = s.straps := rfl
@[simp] theorem State.countFormat_rxLine (s : State) :
    (s.countFormat).rxLine = s.rxLine := rfl
@[simp] theorem State.countFormat_station (s : State) :
    (s.countFormat).station = s.station := rfl
@[simp] theorem State.countFormat_lease (s : State) :
    (s.countFormat).lease = s.lease := rfl
@[simp] theorem State.countFormat_claim (s : State) :
    (s.countFormat).claim = s.claim := rfl
@[simp] theorem State.countFormat_table (s : State) :
    (s.countFormat).table = s.table := rfl
@[simp] theorem State.countFormat_roll (s : State) :
    (s.countFormat).roll = s.roll := rfl
@[simp] theorem State.countFormat_ring (s : State) :
    (s.countFormat).ring = { s.ring with formatCount := saturatingSucc s.ring.formatCount } := rfl
@[simp] theorem State.countFormat_outbound (s : State) :
    (s.countFormat).outbound = s.outbound := rfl
@[simp] theorem State.countFormat_probe (s : State) :
    (s.countFormat).probe = s.probe := rfl
@[simp] theorem State.countFormat_host (s : State) :
    (s.countFormat).host = s.host := rfl
@[simp] theorem State.countFormat_pending (s : State) :
    (s.countFormat).pending = s.pending := rfl

/-! ### countHop -/

@[simp] theorem State.countHop_supplyLow (s : State) :
    (s.countHop).supplyLow = s.supplyLow := rfl
@[simp] theorem State.countHop_resetLow (s : State) :
    (s.countHop).resetLow = s.resetLow := rfl
@[simp] theorem State.countHop_porTimer (s : State) :
    (s.countHop).porTimer = s.porTimer := rfl
@[simp] theorem State.countHop_straps (s : State) :
    (s.countHop).straps = s.straps := rfl
@[simp] theorem State.countHop_rxLine (s : State) :
    (s.countHop).rxLine = s.rxLine := rfl
@[simp] theorem State.countHop_station (s : State) :
    (s.countHop).station = s.station := rfl
@[simp] theorem State.countHop_lease (s : State) :
    (s.countHop).lease = s.lease := rfl
@[simp] theorem State.countHop_claim (s : State) :
    (s.countHop).claim = s.claim := rfl
@[simp] theorem State.countHop_table (s : State) :
    (s.countHop).table = s.table := rfl
@[simp] theorem State.countHop_roll (s : State) :
    (s.countHop).roll = s.roll := rfl
@[simp] theorem State.countHop_ring (s : State) :
    (s.countHop).ring = { s.ring with hopCount := saturatingSucc s.ring.hopCount } := rfl
@[simp] theorem State.countHop_outbound (s : State) :
    (s.countHop).outbound = s.outbound := rfl
@[simp] theorem State.countHop_probe (s : State) :
    (s.countHop).probe = s.probe := rfl
@[simp] theorem State.countHop_host (s : State) :
    (s.countHop).host = s.host := rfl
@[simp] theorem State.countHop_pending (s : State) :
    (s.countHop).pending = s.pending := rfl

/-! ### countOverflow -/

@[simp] theorem State.countOverflow_supplyLow (s : State) :
    (s.countOverflow).supplyLow = s.supplyLow := rfl
@[simp] theorem State.countOverflow_resetLow (s : State) :
    (s.countOverflow).resetLow = s.resetLow := rfl
@[simp] theorem State.countOverflow_porTimer (s : State) :
    (s.countOverflow).porTimer = s.porTimer := rfl
@[simp] theorem State.countOverflow_straps (s : State) :
    (s.countOverflow).straps = s.straps := rfl
@[simp] theorem State.countOverflow_rxLine (s : State) :
    (s.countOverflow).rxLine = s.rxLine := rfl
@[simp] theorem State.countOverflow_station (s : State) :
    (s.countOverflow).station = s.station := rfl
@[simp] theorem State.countOverflow_lease (s : State) :
    (s.countOverflow).lease = s.lease := rfl
@[simp] theorem State.countOverflow_claim (s : State) :
    (s.countOverflow).claim = s.claim := rfl
@[simp] theorem State.countOverflow_table (s : State) :
    (s.countOverflow).table = s.table := rfl
@[simp] theorem State.countOverflow_roll (s : State) :
    (s.countOverflow).roll = s.roll := rfl
@[simp] theorem State.countOverflow_ring (s : State) :
    (s.countOverflow).ring = { s.ring with overflowCount := saturatingSucc s.ring.overflowCount } := rfl
@[simp] theorem State.countOverflow_outbound (s : State) :
    (s.countOverflow).outbound = s.outbound := rfl
@[simp] theorem State.countOverflow_probe (s : State) :
    (s.countOverflow).probe = s.probe := rfl
@[simp] theorem State.countOverflow_host (s : State) :
    (s.countOverflow).host = s.host := rfl
@[simp] theorem State.countOverflow_pending (s : State) :
    (s.countOverflow).pending = s.pending := rfl

/-! ### finish -/

@[simp] theorem State.finish_supplyLow (i : SlotIx) (st : Status) (c : Content) (s : State) :
    (s.finish i st c).supplyLow = s.supplyLow := rfl
@[simp] theorem State.finish_resetLow (i : SlotIx) (st : Status) (c : Content) (s : State) :
    (s.finish i st c).resetLow = s.resetLow := rfl
@[simp] theorem State.finish_porTimer (i : SlotIx) (st : Status) (c : Content) (s : State) :
    (s.finish i st c).porTimer = s.porTimer := rfl
@[simp] theorem State.finish_straps (i : SlotIx) (st : Status) (c : Content) (s : State) :
    (s.finish i st c).straps = s.straps := rfl
@[simp] theorem State.finish_rxLine (i : SlotIx) (st : Status) (c : Content) (s : State) :
    (s.finish i st c).rxLine = s.rxLine := rfl
@[simp] theorem State.finish_station (i : SlotIx) (st : Status) (c : Content) (s : State) :
    (s.finish i st c).station = s.station := rfl
@[simp] theorem State.finish_lease (i : SlotIx) (st : Status) (c : Content) (s : State) :
    (s.finish i st c).lease = s.lease := rfl
@[simp] theorem State.finish_claim (i : SlotIx) (st : Status) (c : Content) (s : State) :
    (s.finish i st c).claim = s.claim := rfl
@[simp] theorem State.finish_table (i : SlotIx) (st : Status) (c : Content) (s : State) :
    (s.finish i st c).table = s.table.finish i st c := rfl
@[simp] theorem State.finish_roll (i : SlotIx) (st : Status) (c : Content) (s : State) :
    (s.finish i st c).roll = s.roll := rfl
@[simp] theorem State.finish_ring (i : SlotIx) (st : Status) (c : Content) (s : State) :
    (s.finish i st c).ring = s.ring := rfl
@[simp] theorem State.finish_outbound (i : SlotIx) (st : Status) (c : Content) (s : State) :
    (s.finish i st c).outbound = s.outbound := rfl
@[simp] theorem State.finish_probe (i : SlotIx) (st : Status) (c : Content) (s : State) :
    (s.finish i st c).probe = s.probe := rfl
@[simp] theorem State.finish_host (i : SlotIx) (st : Status) (c : Content) (s : State) :
    (s.finish i st c).host = s.host := rfl
@[simp] theorem State.finish_pending (i : SlotIx) (st : Status) (c : Content) (s : State) :
    (s.finish i st c).pending = s.pending := rfl

/-! ### startIdle -/

@[simp] theorem State.startIdle_supplyLow (b : State) (s : State) :
    (s.startIdle b).supplyLow = s.supplyLow := rfl
@[simp] theorem State.startIdle_resetLow (b : State) (s : State) :
    (s.startIdle b).resetLow = s.resetLow := rfl
@[simp] theorem State.startIdle_porTimer (b : State) (s : State) :
    (s.startIdle b).porTimer = s.porTimer := rfl
@[simp] theorem State.startIdle_straps (b : State) (s : State) :
    (s.startIdle b).straps = s.straps := rfl
@[simp] theorem State.startIdle_rxLine (b : State) (s : State) :
    (s.startIdle b).rxLine = s.rxLine := rfl
@[simp] theorem State.startIdle_station (b : State) (s : State) :
    (s.startIdle b).station = s.station := rfl
@[simp] theorem State.startIdle_lease (b : State) (s : State) :
    (s.startIdle b).lease = s.lease := rfl
@[simp] theorem State.startIdle_claim (b : State) (s : State) :
    (s.startIdle b).claim = s.claim := rfl
@[simp] theorem State.startIdle_table (b : State) (s : State) :
    (s.startIdle b).table = s.table := rfl
@[simp] theorem State.startIdle_roll (b : State) (s : State) :
    (s.startIdle b).roll = s.roll := rfl
@[simp] theorem State.startIdle_outbound (b : State) (s : State) :
    (s.startIdle b).outbound = s.outbound := rfl
@[simp] theorem State.startIdle_probe (b : State) (s : State) :
    (s.startIdle b).probe = s.probe := rfl
@[simp] theorem State.startIdle_host (b : State) (s : State) :
    (s.startIdle b).host = s.host := rfl
@[simp] theorem State.startIdle_pending (b : State) (s : State) :
    (s.startIdle b).pending = s.pending := rfl

/-! ### choose -/

@[simp] theorem State.choose_supplyLow (s : State) :
    (s.choose).supplyLow = s.supplyLow := rfl
@[simp] theorem State.choose_resetLow (s : State) :
    (s.choose).resetLow = s.resetLow := rfl
@[simp] theorem State.choose_porTimer (s : State) :
    (s.choose).porTimer = s.porTimer := rfl
@[simp] theorem State.choose_straps (s : State) :
    (s.choose).straps = s.straps := rfl
@[simp] theorem State.choose_rxLine (s : State) :
    (s.choose).rxLine = s.rxLine := rfl
@[simp] theorem State.choose_station (s : State) :
    (s.choose).station = s.station := rfl
@[simp] theorem State.choose_lease (s : State) :
    (s.choose).lease = s.lease := rfl
@[simp] theorem State.choose_claim (s : State) :
    (s.choose).claim = s.claim := rfl
@[simp] theorem State.choose_table (s : State) :
    (s.choose).table = s.table := rfl
@[simp] theorem State.choose_roll (s : State) :
    (s.choose).roll = s.roll := rfl
@[simp] theorem State.choose_ring (s : State) :
    (s.choose).ring = s.chosen := rfl
@[simp] theorem State.choose_outbound (s : State) :
    (s.choose).outbound = s.outbound := rfl
@[simp] theorem State.choose_probe (s : State) :
    (s.choose).probe = s.probe := rfl
@[simp] theorem State.choose_host (s : State) :
    (s.choose).host = s.host := rfl
@[simp] theorem State.choose_pending (s : State) :
    (s.choose).pending = s.pending := rfl

/-! ### enqueue -/

@[simp] theorem State.enqueue_supplyLow (b : Body) (o : Option SlotIx) (s : State) :
    (s.enqueue b o).supplyLow = s.supplyLow := rfl
@[simp] theorem State.enqueue_resetLow (b : Body) (o : Option SlotIx) (s : State) :
    (s.enqueue b o).resetLow = s.resetLow := rfl
@[simp] theorem State.enqueue_porTimer (b : Body) (o : Option SlotIx) (s : State) :
    (s.enqueue b o).porTimer = s.porTimer := rfl
@[simp] theorem State.enqueue_straps (b : Body) (o : Option SlotIx) (s : State) :
    (s.enqueue b o).straps = s.straps := rfl
@[simp] theorem State.enqueue_rxLine (b : Body) (o : Option SlotIx) (s : State) :
    (s.enqueue b o).rxLine = s.rxLine := rfl
@[simp] theorem State.enqueue_station (b : Body) (o : Option SlotIx) (s : State) :
    (s.enqueue b o).station = s.station := rfl
@[simp] theorem State.enqueue_lease (b : Body) (o : Option SlotIx) (s : State) :
    (s.enqueue b o).lease = s.lease := rfl
@[simp] theorem State.enqueue_claim (b : Body) (o : Option SlotIx) (s : State) :
    (s.enqueue b o).claim = s.claim := rfl
@[simp] theorem State.enqueue_table (b : Body) (o : Option SlotIx) (s : State) :
    (s.enqueue b o).table = s.table := rfl
@[simp] theorem State.enqueue_roll (b : Body) (o : Option SlotIx) (s : State) :
    (s.enqueue b o).roll = s.roll := rfl
@[simp] theorem State.enqueue_ring (b : Body) (o : Option SlotIx) (s : State) :
    (s.enqueue b o).ring = s.ring := rfl
@[simp] theorem State.enqueue_outbound (b : Body) (o : Option SlotIx) (s : State) :
    (s.enqueue b o).outbound = s.outbound ++ [{ frame := { origin := s.station.address, hop := 0, body := b }, owner := o }] := rfl
@[simp] theorem State.enqueue_probe (b : Body) (o : Option SlotIx) (s : State) :
    (s.enqueue b o).probe = s.probe := rfl
@[simp] theorem State.enqueue_host (b : Body) (o : Option SlotIx) (s : State) :
    (s.enqueue b o).host = s.host := rfl
@[simp] theorem State.enqueue_pending (b : Body) (o : Option SlotIx) (s : State) :
    (s.enqueue b o).pending = s.pending := rfl

/-! ### report -/

@[simp] theorem State.report_supplyLow (i : SlotIx) (r : Report) (s : State) :
    (s.report i r).supplyLow = s.supplyLow := rfl
@[simp] theorem State.report_resetLow (i : SlotIx) (r : Report) (s : State) :
    (s.report i r).resetLow = s.resetLow := rfl
@[simp] theorem State.report_porTimer (i : SlotIx) (r : Report) (s : State) :
    (s.report i r).porTimer = s.porTimer := rfl
@[simp] theorem State.report_straps (i : SlotIx) (r : Report) (s : State) :
    (s.report i r).straps = s.straps := rfl
@[simp] theorem State.report_rxLine (i : SlotIx) (r : Report) (s : State) :
    (s.report i r).rxLine = s.rxLine := rfl
@[simp] theorem State.report_station (i : SlotIx) (r : Report) (s : State) :
    (s.report i r).station = s.station := rfl
@[simp] theorem State.report_lease (i : SlotIx) (r : Report) (s : State) :
    (s.report i r).lease = s.lease := rfl
@[simp] theorem State.report_claim (i : SlotIx) (r : Report) (s : State) :
    (s.report i r).claim = s.claim := rfl
@[simp] theorem State.report_table (i : SlotIx) (r : Report) (s : State) :
    (s.report i r).table = s.table.modifySlot i (fun sl => { sl with phase := .settling, acquire := sl.acquire.map (Acquire.take r) }) := rfl
@[simp] theorem State.report_roll (i : SlotIx) (r : Report) (s : State) :
    (s.report i r).roll = s.roll := rfl
@[simp] theorem State.report_ring (i : SlotIx) (r : Report) (s : State) :
    (s.report i r).ring = s.ring := rfl
@[simp] theorem State.report_outbound (i : SlotIx) (r : Report) (s : State) :
    (s.report i r).outbound = s.outbound := rfl
@[simp] theorem State.report_probe (i : SlotIx) (r : Report) (s : State) :
    (s.report i r).probe = s.probe := rfl
@[simp] theorem State.report_host (i : SlotIx) (r : Report) (s : State) :
    (s.report i r).host = s.host := rfl
@[simp] theorem State.report_pending (i : SlotIx) (r : Report) (s : State) :
    (s.report i r).pending = s.pending := rfl

/-! ### enqueueSettle -/

@[simp] theorem State.enqueueSettle_supplyLow (e : ClaimEntry) (o : SettleOutcome) (s : State) :
    (s.enqueueSettle e o).supplyLow = s.supplyLow := rfl
@[simp] theorem State.enqueueSettle_resetLow (e : ClaimEntry) (o : SettleOutcome) (s : State) :
    (s.enqueueSettle e o).resetLow = s.resetLow := rfl
@[simp] theorem State.enqueueSettle_porTimer (e : ClaimEntry) (o : SettleOutcome) (s : State) :
    (s.enqueueSettle e o).porTimer = s.porTimer := rfl
@[simp] theorem State.enqueueSettle_straps (e : ClaimEntry) (o : SettleOutcome) (s : State) :
    (s.enqueueSettle e o).straps = s.straps := rfl
@[simp] theorem State.enqueueSettle_rxLine (e : ClaimEntry) (o : SettleOutcome) (s : State) :
    (s.enqueueSettle e o).rxLine = s.rxLine := rfl
@[simp] theorem State.enqueueSettle_station (e : ClaimEntry) (o : SettleOutcome) (s : State) :
    (s.enqueueSettle e o).station = s.station := rfl
@[simp] theorem State.enqueueSettle_lease (e : ClaimEntry) (o : SettleOutcome) (s : State) :
    (s.enqueueSettle e o).lease = s.lease := rfl
@[simp] theorem State.enqueueSettle_claim (e : ClaimEntry) (o : SettleOutcome) (s : State) :
    (s.enqueueSettle e o).claim = s.claim := rfl
@[simp] theorem State.enqueueSettle_table (e : ClaimEntry) (o : SettleOutcome) (s : State) :
    (s.enqueueSettle e o).table = s.table := rfl
@[simp] theorem State.enqueueSettle_roll (e : ClaimEntry) (o : SettleOutcome) (s : State) :
    (s.enqueueSettle e o).roll = s.roll := rfl
@[simp] theorem State.enqueueSettle_ring (e : ClaimEntry) (o : SettleOutcome) (s : State) :
    (s.enqueueSettle e o).ring = s.ring := rfl
@[simp] theorem State.enqueueSettle_probe (e : ClaimEntry) (o : SettleOutcome) (s : State) :
    (s.enqueueSettle e o).probe = s.probe := rfl
@[simp] theorem State.enqueueSettle_host (e : ClaimEntry) (o : SettleOutcome) (s : State) :
    (s.enqueueSettle e o).host = s.host := rfl
@[simp] theorem State.enqueueSettle_pending (e : ClaimEntry) (o : SettleOutcome) (s : State) :
    (s.enqueueSettle e o).pending = s.pending := rfl

/-! ### issueClaim -/

@[simp] theorem State.issueClaim_supplyLow (i : SlotIx) (a : Acquire) (s : State) :
    (s.issueClaim i a).supplyLow = s.supplyLow := rfl
@[simp] theorem State.issueClaim_resetLow (i : SlotIx) (a : Acquire) (s : State) :
    (s.issueClaim i a).resetLow = s.resetLow := rfl
@[simp] theorem State.issueClaim_porTimer (i : SlotIx) (a : Acquire) (s : State) :
    (s.issueClaim i a).porTimer = s.porTimer := rfl
@[simp] theorem State.issueClaim_straps (i : SlotIx) (a : Acquire) (s : State) :
    (s.issueClaim i a).straps = s.straps := rfl
@[simp] theorem State.issueClaim_rxLine (i : SlotIx) (a : Acquire) (s : State) :
    (s.issueClaim i a).rxLine = s.rxLine := rfl
@[simp] theorem State.issueClaim_station (i : SlotIx) (a : Acquire) (s : State) :
    (s.issueClaim i a).station = s.station := rfl
@[simp] theorem State.issueClaim_lease (i : SlotIx) (a : Acquire) (s : State) :
    (s.issueClaim i a).lease = s.lease := rfl
@[simp] theorem State.issueClaim_table (i : SlotIx) (a : Acquire) (s : State) :
    (s.issueClaim i a).table = s.table.modifySlot i (fun sl => { sl with phase := .claiming }) := rfl
@[simp] theorem State.issueClaim_roll (i : SlotIx) (a : Acquire) (s : State) :
    (s.issueClaim i a).roll = s.roll := rfl
@[simp] theorem State.issueClaim_ring (i : SlotIx) (a : Acquire) (s : State) :
    (s.issueClaim i a).ring = s.ring := rfl
@[simp] theorem State.issueClaim_probe (i : SlotIx) (a : Acquire) (s : State) :
    (s.issueClaim i a).probe = s.probe := rfl
@[simp] theorem State.issueClaim_host (i : SlotIx) (a : Acquire) (s : State) :
    (s.issueClaim i a).host = s.host := rfl
@[simp] theorem State.issueClaim_pending (i : SlotIx) (a : Acquire) (s : State) :
    (s.issueClaim i a).pending = s.pending := rfl

/-! ### releaseHold -/

@[simp] theorem State.releaseHold_supplyLow (e : HoldEntry) (n : List Byte) (i : SlotIx) (c : Option Completion) (s : State) :
    (s.releaseHold e n i c).supplyLow = s.supplyLow := rfl
@[simp] theorem State.releaseHold_resetLow (e : HoldEntry) (n : List Byte) (i : SlotIx) (c : Option Completion) (s : State) :
    (s.releaseHold e n i c).resetLow = s.resetLow := rfl
@[simp] theorem State.releaseHold_porTimer (e : HoldEntry) (n : List Byte) (i : SlotIx) (c : Option Completion) (s : State) :
    (s.releaseHold e n i c).porTimer = s.porTimer := rfl
@[simp] theorem State.releaseHold_straps (e : HoldEntry) (n : List Byte) (i : SlotIx) (c : Option Completion) (s : State) :
    (s.releaseHold e n i c).straps = s.straps := rfl
@[simp] theorem State.releaseHold_rxLine (e : HoldEntry) (n : List Byte) (i : SlotIx) (c : Option Completion) (s : State) :
    (s.releaseHold e n i c).rxLine = s.rxLine := rfl
@[simp] theorem State.releaseHold_station (e : HoldEntry) (n : List Byte) (i : SlotIx) (c : Option Completion) (s : State) :
    (s.releaseHold e n i c).station = s.station := rfl
@[simp] theorem State.releaseHold_lease (e : HoldEntry) (n : List Byte) (i : SlotIx) (c : Option Completion) (s : State) :
    (s.releaseHold e n i c).lease = s.lease.ownRelease s.station.address e.resource e.mode n := rfl
@[simp] theorem State.releaseHold_claim (e : HoldEntry) (n : List Byte) (i : SlotIx) (c : Option Completion) (s : State) :
    (s.releaseHold e n i c).claim = s.claim := rfl
@[simp] theorem State.releaseHold_table (e : HoldEntry) (n : List Byte) (i : SlotIx) (c : Option Completion) (s : State) :
    (s.releaseHold e n i c).table = s.table.modifySlot i (fun sl => { sl with phase := .releasing, completion := c }) := rfl
@[simp] theorem State.releaseHold_roll (e : HoldEntry) (n : List Byte) (i : SlotIx) (c : Option Completion) (s : State) :
    (s.releaseHold e n i c).roll = s.roll := rfl
@[simp] theorem State.releaseHold_ring (e : HoldEntry) (n : List Byte) (i : SlotIx) (c : Option Completion) (s : State) :
    (s.releaseHold e n i c).ring = s.ring := rfl
@[simp] theorem State.releaseHold_probe (e : HoldEntry) (n : List Byte) (i : SlotIx) (c : Option Completion) (s : State) :
    (s.releaseHold e n i c).probe = s.probe := rfl
@[simp] theorem State.releaseHold_host (e : HoldEntry) (n : List Byte) (i : SlotIx) (c : Option Completion) (s : State) :
    (s.releaseHold e n i c).host = s.host := rfl
@[simp] theorem State.releaseHold_pending (e : HoldEntry) (n : List Byte) (i : SlotIx) (c : Option Completion) (s : State) :
    (s.releaseHold e n i c).pending = s.pending := rfl

/-! ### assertBypass -/

@[simp] theorem State.assertBypass_supplyLow (s : State) :
    (s.assertBypass).supplyLow = s.supplyLow := rfl
@[simp] theorem State.assertBypass_resetLow (s : State) :
    (s.assertBypass).resetLow = s.resetLow := rfl
@[simp] theorem State.assertBypass_porTimer (s : State) :
    (s.assertBypass).porTimer = s.porTimer := rfl
@[simp] theorem State.assertBypass_straps (s : State) :
    (s.assertBypass).straps = s.straps := rfl
@[simp] theorem State.assertBypass_rxLine (s : State) :
    (s.assertBypass).rxLine = s.rxLine := rfl
@[simp] theorem State.assertBypass_station (s : State) :
    (s.assertBypass).station = s.station := rfl
@[simp] theorem State.assertBypass_lease (s : State) :
    (s.assertBypass).lease = s.lease := rfl
@[simp] theorem State.assertBypass_claim (s : State) :
    (s.assertBypass).claim = s.claim := rfl
@[simp] theorem State.assertBypass_table (s : State) :
    (s.assertBypass).table = s.table := rfl
@[simp] theorem State.assertBypass_roll (s : State) :
    (s.assertBypass).roll = s.roll := rfl
@[simp] theorem State.assertBypass_outbound (s : State) :
    (s.assertBypass).outbound = [] := rfl
@[simp] theorem State.assertBypass_probe (s : State) :
    (s.assertBypass).probe = { s.probe with phase := .idle } := rfl
@[simp] theorem State.assertBypass_host (s : State) :
    (s.assertBypass).host = s.host := rfl
@[simp] theorem State.assertBypass_pending (s : State) :
    (s.assertBypass).pending = s.pending := rfl

/-! ### releaseBypass -/

@[simp] theorem State.releaseBypass_supplyLow (s : State) :
    (s.releaseBypass).supplyLow = s.supplyLow := rfl
@[simp] theorem State.releaseBypass_resetLow (s : State) :
    (s.releaseBypass).resetLow = s.resetLow := rfl
@[simp] theorem State.releaseBypass_porTimer (s : State) :
    (s.releaseBypass).porTimer = s.porTimer := rfl
@[simp] theorem State.releaseBypass_straps (s : State) :
    (s.releaseBypass).straps = s.straps := rfl
@[simp] theorem State.releaseBypass_rxLine (s : State) :
    (s.releaseBypass).rxLine = s.rxLine := rfl
@[simp] theorem State.releaseBypass_station (s : State) :
    (s.releaseBypass).station = s.station := rfl
@[simp] theorem State.releaseBypass_lease (s : State) :
    (s.releaseBypass).lease = s.lease := rfl
@[simp] theorem State.releaseBypass_claim (s : State) :
    (s.releaseBypass).claim = s.claim := rfl
@[simp] theorem State.releaseBypass_table (s : State) :
    (s.releaseBypass).table = s.table := rfl
@[simp] theorem State.releaseBypass_roll (s : State) :
    (s.releaseBypass).roll = s.roll := rfl
@[simp] theorem State.releaseBypass_ring (s : State) :
    (s.releaseBypass).ring = { s.ring with transmitter := .idle } := rfl
@[simp] theorem State.releaseBypass_outbound (s : State) :
    (s.releaseBypass).outbound = s.outbound := rfl
@[simp] theorem State.releaseBypass_probe (s : State) :
    (s.releaseBypass).probe = s.probe := rfl
@[simp] theorem State.releaseBypass_host (s : State) :
    (s.releaseBypass).host = s.host := rfl
@[simp] theorem State.releaseBypass_pending (s : State) :
    (s.releaseBypass).pending = s.pending := rfl

/-! ### driveData -/

@[simp] theorem State.driveData_supplyLow (b : Byte) (s : State) :
    (s.driveData b).supplyLow = s.supplyLow := rfl
@[simp] theorem State.driveData_resetLow (b : Byte) (s : State) :
    (s.driveData b).resetLow = s.resetLow := rfl
@[simp] theorem State.driveData_porTimer (b : Byte) (s : State) :
    (s.driveData b).porTimer = s.porTimer := rfl
@[simp] theorem State.driveData_straps (b : Byte) (s : State) :
    (s.driveData b).straps = s.straps := rfl
@[simp] theorem State.driveData_rxLine (b : Byte) (s : State) :
    (s.driveData b).rxLine = s.rxLine := rfl
@[simp] theorem State.driveData_station (b : Byte) (s : State) :
    (s.driveData b).station = s.station := rfl
@[simp] theorem State.driveData_lease (b : Byte) (s : State) :
    (s.driveData b).lease = s.lease := rfl
@[simp] theorem State.driveData_claim (b : Byte) (s : State) :
    (s.driveData b).claim = s.claim := rfl
@[simp] theorem State.driveData_table (b : Byte) (s : State) :
    (s.driveData b).table = s.table := rfl
@[simp] theorem State.driveData_roll (b : Byte) (s : State) :
    (s.driveData b).roll = s.roll := rfl
@[simp] theorem State.driveData_ring (b : Byte) (s : State) :
    (s.driveData b).ring = s.ring := rfl
@[simp] theorem State.driveData_outbound (b : Byte) (s : State) :
    (s.driveData b).outbound = s.outbound := rfl
@[simp] theorem State.driveData_probe (b : Byte) (s : State) :
    (s.driveData b).probe = s.probe := rfl
@[simp] theorem State.driveData_host (b : Byte) (s : State) :
    (s.driveData b).host = { s.host with dataOut := b } := rfl
@[simp] theorem State.driveData_pending (b : Byte) (s : State) :
    (s.driveData b).pending = s.pending := rfl

/-! ### statusWrite -/

@[simp] theorem State.statusWrite_supplyLow (b : Byte) (s : State) :
    (s.statusWrite b).supplyLow = s.supplyLow := rfl
@[simp] theorem State.statusWrite_resetLow (b : Byte) (s : State) :
    (s.statusWrite b).resetLow = s.resetLow := rfl
@[simp] theorem State.statusWrite_porTimer (b : Byte) (s : State) :
    (s.statusWrite b).porTimer = s.porTimer := rfl
@[simp] theorem State.statusWrite_straps (b : Byte) (s : State) :
    (s.statusWrite b).straps = s.straps := rfl
@[simp] theorem State.statusWrite_rxLine (b : Byte) (s : State) :
    (s.statusWrite b).rxLine = s.rxLine := rfl
@[simp] theorem State.statusWrite_station (b : Byte) (s : State) :
    (s.statusWrite b).station = s.station := rfl
@[simp] theorem State.statusWrite_lease (b : Byte) (s : State) :
    (s.statusWrite b).lease = s.lease := rfl
@[simp] theorem State.statusWrite_claim (b : Byte) (s : State) :
    (s.statusWrite b).claim = s.claim := rfl
@[simp] theorem State.statusWrite_table (b : Byte) (s : State) :
    (s.statusWrite b).table = s.table := rfl
@[simp] theorem State.statusWrite_roll (b : Byte) (s : State) :
    (s.statusWrite b).roll = s.roll := rfl
@[simp] theorem State.statusWrite_ring (b : Byte) (s : State) :
    (s.statusWrite b).ring = s.ring := rfl
@[simp] theorem State.statusWrite_outbound (b : Byte) (s : State) :
    (s.statusWrite b).outbound = s.outbound := rfl
@[simp] theorem State.statusWrite_pending (b : Byte) (s : State) :
    (s.statusWrite b).pending = s.pending := rfl

/-! ### intmaskWrite -/

@[simp] theorem State.intmaskWrite_supplyLow (b : Byte) (s : State) :
    (s.intmaskWrite b).supplyLow = s.supplyLow := rfl
@[simp] theorem State.intmaskWrite_resetLow (b : Byte) (s : State) :
    (s.intmaskWrite b).resetLow = s.resetLow := rfl
@[simp] theorem State.intmaskWrite_porTimer (b : Byte) (s : State) :
    (s.intmaskWrite b).porTimer = s.porTimer := rfl
@[simp] theorem State.intmaskWrite_straps (b : Byte) (s : State) :
    (s.intmaskWrite b).straps = s.straps := rfl
@[simp] theorem State.intmaskWrite_rxLine (b : Byte) (s : State) :
    (s.intmaskWrite b).rxLine = s.rxLine := rfl
@[simp] theorem State.intmaskWrite_station (b : Byte) (s : State) :
    (s.intmaskWrite b).station = s.station := rfl
@[simp] theorem State.intmaskWrite_lease (b : Byte) (s : State) :
    (s.intmaskWrite b).lease = s.lease := rfl
@[simp] theorem State.intmaskWrite_claim (b : Byte) (s : State) :
    (s.intmaskWrite b).claim = s.claim := rfl
@[simp] theorem State.intmaskWrite_table (b : Byte) (s : State) :
    (s.intmaskWrite b).table = s.table := rfl
@[simp] theorem State.intmaskWrite_roll (b : Byte) (s : State) :
    (s.intmaskWrite b).roll = s.roll := rfl
@[simp] theorem State.intmaskWrite_ring (b : Byte) (s : State) :
    (s.intmaskWrite b).ring = s.ring := rfl
@[simp] theorem State.intmaskWrite_outbound (b : Byte) (s : State) :
    (s.intmaskWrite b).outbound = s.outbound := rfl
@[simp] theorem State.intmaskWrite_probe (b : Byte) (s : State) :
    (s.intmaskWrite b).probe = s.probe := rfl
@[simp] theorem State.intmaskWrite_host (b : Byte) (s : State) :
    (s.intmaskWrite b).host = { s.host with recordInt := b.getLsbD 0, noticeLostInt := b.getLsbD 1 } := rfl
@[simp] theorem State.intmaskWrite_pending (b : Byte) (s : State) :
    (s.intmaskWrite b).pending = s.pending := rfl

/-! ### sendChar -/

@[simp] theorem State.sendChar_supplyLow (c : LinkChar) (t : Transmitter) (s : State) :
    (s.sendChar c t).supplyLow = s.supplyLow := rfl
@[simp] theorem State.sendChar_resetLow (c : LinkChar) (t : Transmitter) (s : State) :
    (s.sendChar c t).resetLow = s.resetLow := rfl
@[simp] theorem State.sendChar_porTimer (c : LinkChar) (t : Transmitter) (s : State) :
    (s.sendChar c t).porTimer = s.porTimer := rfl
@[simp] theorem State.sendChar_straps (c : LinkChar) (t : Transmitter) (s : State) :
    (s.sendChar c t).straps = s.straps := rfl
@[simp] theorem State.sendChar_rxLine (c : LinkChar) (t : Transmitter) (s : State) :
    (s.sendChar c t).rxLine = s.rxLine := rfl
@[simp] theorem State.sendChar_station (c : LinkChar) (t : Transmitter) (s : State) :
    (s.sendChar c t).station = s.station := rfl
@[simp] theorem State.sendChar_lease (c : LinkChar) (t : Transmitter) (s : State) :
    (s.sendChar c t).lease = s.lease := rfl
@[simp] theorem State.sendChar_claim (c : LinkChar) (t : Transmitter) (s : State) :
    (s.sendChar c t).claim = s.claim := rfl
@[simp] theorem State.sendChar_table (c : LinkChar) (t : Transmitter) (s : State) :
    (s.sendChar c t).table = s.table := rfl
@[simp] theorem State.sendChar_roll (c : LinkChar) (t : Transmitter) (s : State) :
    (s.sendChar c t).roll = s.roll := rfl
@[simp] theorem State.sendChar_ring (c : LinkChar) (t : Transmitter) (s : State) :
    (s.sendChar c t).ring = { s.ring with txLine := c, transmitter := t } := rfl
@[simp] theorem State.sendChar_outbound (c : LinkChar) (t : Transmitter) (s : State) :
    (s.sendChar c t).outbound = s.outbound := rfl
@[simp] theorem State.sendChar_probe (c : LinkChar) (t : Transmitter) (s : State) :
    (s.sendChar c t).probe = s.probe := rfl
@[simp] theorem State.sendChar_host (c : LinkChar) (t : Transmitter) (s : State) :
    (s.sendChar c t).host = s.host := rfl
@[simp] theorem State.sendChar_pending (c : LinkChar) (t : Transmitter) (s : State) :
    (s.sendChar c t).pending = s.pending := rfl

/-! ### dropForwarded -/

@[simp] theorem State.dropForwarded_supplyLow (s : State) :
    (s.dropForwarded).supplyLow = s.supplyLow := rfl
@[simp] theorem State.dropForwarded_resetLow (s : State) :
    (s.dropForwarded).resetLow = s.resetLow := rfl
@[simp] theorem State.dropForwarded_porTimer (s : State) :
    (s.dropForwarded).porTimer = s.porTimer := rfl
@[simp] theorem State.dropForwarded_straps (s : State) :
    (s.dropForwarded).straps = s.straps := rfl
@[simp] theorem State.dropForwarded_rxLine (s : State) :
    (s.dropForwarded).rxLine = s.rxLine := rfl
@[simp] theorem State.dropForwarded_station (s : State) :
    (s.dropForwarded).station = s.station := rfl
@[simp] theorem State.dropForwarded_lease (s : State) :
    (s.dropForwarded).lease = s.lease := rfl
@[simp] theorem State.dropForwarded_claim (s : State) :
    (s.dropForwarded).claim = s.claim := rfl
@[simp] theorem State.dropForwarded_table (s : State) :
    (s.dropForwarded).table = s.table := rfl
@[simp] theorem State.dropForwarded_roll (s : State) :
    (s.dropForwarded).roll = s.roll := rfl
@[simp] theorem State.dropForwarded_ring (s : State) :
    (s.dropForwarded).ring = { s.ring with forwarding := s.ring.forwarding.tail, transmitter := .endDue } := rfl
@[simp] theorem State.dropForwarded_outbound (s : State) :
    (s.dropForwarded).outbound = s.outbound := rfl
@[simp] theorem State.dropForwarded_probe (s : State) :
    (s.dropForwarded).probe = s.probe := rfl
@[simp] theorem State.dropForwarded_host (s : State) :
    (s.dropForwarded).host = s.host := rfl
@[simp] theorem State.dropForwarded_pending (s : State) :
    (s.dropForwarded).pending = s.pending := rfl

/-! ### raiseNotice -/

@[simp] theorem State.raiseNotice_supplyLow (n : Notice) (s : State) :
    (s.raiseNotice n).supplyLow = s.supplyLow := by unfold State.raiseNotice; split <;> rfl
@[simp] theorem State.raiseNotice_resetLow (n : Notice) (s : State) :
    (s.raiseNotice n).resetLow = s.resetLow := by unfold State.raiseNotice; split <;> rfl
@[simp] theorem State.raiseNotice_porTimer (n : Notice) (s : State) :
    (s.raiseNotice n).porTimer = s.porTimer := by unfold State.raiseNotice; split <;> rfl
@[simp] theorem State.raiseNotice_straps (n : Notice) (s : State) :
    (s.raiseNotice n).straps = s.straps := by unfold State.raiseNotice; split <;> rfl
@[simp] theorem State.raiseNotice_rxLine (n : Notice) (s : State) :
    (s.raiseNotice n).rxLine = s.rxLine := by unfold State.raiseNotice; split <;> rfl
@[simp] theorem State.raiseNotice_station (n : Notice) (s : State) :
    (s.raiseNotice n).station = s.station := by unfold State.raiseNotice; split <;> rfl
@[simp] theorem State.raiseNotice_lease (n : Notice) (s : State) :
    (s.raiseNotice n).lease = s.lease := by unfold State.raiseNotice; split <;> rfl
@[simp] theorem State.raiseNotice_claim (n : Notice) (s : State) :
    (s.raiseNotice n).claim = s.claim := by unfold State.raiseNotice; split <;> rfl
@[simp] theorem State.raiseNotice_roll (n : Notice) (s : State) :
    (s.raiseNotice n).roll = s.roll := by unfold State.raiseNotice; split <;> rfl
@[simp] theorem State.raiseNotice_ring (n : Notice) (s : State) :
    (s.raiseNotice n).ring = s.ring := by unfold State.raiseNotice; split <;> rfl
@[simp] theorem State.raiseNotice_outbound (n : Notice) (s : State) :
    (s.raiseNotice n).outbound = s.outbound := by unfold State.raiseNotice; split <;> rfl
@[simp] theorem State.raiseNotice_probe (n : Notice) (s : State) :
    (s.raiseNotice n).probe = s.probe := by unfold State.raiseNotice; split <;> rfl
@[simp] theorem State.raiseNotice_pending (n : Notice) (s : State) :
    (s.raiseNotice n).pending = s.pending := by unfold State.raiseNotice; split <;> rfl

/-! ### raiseState -/

@[simp] theorem State.raiseState_supplyLow (c : NoticeCause) (b : StationState) (s : State) :
    (s.raiseState c b).supplyLow = s.supplyLow := State.raiseNotice_supplyLow _ s
@[simp] theorem State.raiseState_resetLow (c : NoticeCause) (b : StationState) (s : State) :
    (s.raiseState c b).resetLow = s.resetLow := State.raiseNotice_resetLow _ s
@[simp] theorem State.raiseState_porTimer (c : NoticeCause) (b : StationState) (s : State) :
    (s.raiseState c b).porTimer = s.porTimer := State.raiseNotice_porTimer _ s
@[simp] theorem State.raiseState_straps (c : NoticeCause) (b : StationState) (s : State) :
    (s.raiseState c b).straps = s.straps := State.raiseNotice_straps _ s
@[simp] theorem State.raiseState_rxLine (c : NoticeCause) (b : StationState) (s : State) :
    (s.raiseState c b).rxLine = s.rxLine := State.raiseNotice_rxLine _ s
@[simp] theorem State.raiseState_station (c : NoticeCause) (b : StationState) (s : State) :
    (s.raiseState c b).station = s.station := State.raiseNotice_station _ s
@[simp] theorem State.raiseState_lease (c : NoticeCause) (b : StationState) (s : State) :
    (s.raiseState c b).lease = s.lease := State.raiseNotice_lease _ s
@[simp] theorem State.raiseState_claim (c : NoticeCause) (b : StationState) (s : State) :
    (s.raiseState c b).claim = s.claim := State.raiseNotice_claim _ s
@[simp] theorem State.raiseState_roll (c : NoticeCause) (b : StationState) (s : State) :
    (s.raiseState c b).roll = s.roll := State.raiseNotice_roll _ s
@[simp] theorem State.raiseState_ring (c : NoticeCause) (b : StationState) (s : State) :
    (s.raiseState c b).ring = s.ring := State.raiseNotice_ring _ s
@[simp] theorem State.raiseState_outbound (c : NoticeCause) (b : StationState) (s : State) :
    (s.raiseState c b).outbound = s.outbound := State.raiseNotice_outbound _ s
@[simp] theorem State.raiseState_probe (c : NoticeCause) (b : StationState) (s : State) :
    (s.raiseState c b).probe = s.probe := State.raiseNotice_probe _ s
@[simp] theorem State.raiseState_pending (c : NoticeCause) (b : StationState) (s : State) :
    (s.raiseState c b).pending = s.pending := State.raiseNotice_pending _ s

/-! ### raiseRoster -/

@[simp] theorem State.raiseRoster_supplyLow (q : Byte) (o n : List RosterEntry) (s : State) :
    (s.raiseRoster q o n).supplyLow = s.supplyLow := by unfold State.raiseRoster; dsimp only; split <;> simp
@[simp] theorem State.raiseRoster_resetLow (q : Byte) (o n : List RosterEntry) (s : State) :
    (s.raiseRoster q o n).resetLow = s.resetLow := by unfold State.raiseRoster; dsimp only; split <;> simp
@[simp] theorem State.raiseRoster_porTimer (q : Byte) (o n : List RosterEntry) (s : State) :
    (s.raiseRoster q o n).porTimer = s.porTimer := by unfold State.raiseRoster; dsimp only; split <;> simp
@[simp] theorem State.raiseRoster_straps (q : Byte) (o n : List RosterEntry) (s : State) :
    (s.raiseRoster q o n).straps = s.straps := by unfold State.raiseRoster; dsimp only; split <;> simp
@[simp] theorem State.raiseRoster_rxLine (q : Byte) (o n : List RosterEntry) (s : State) :
    (s.raiseRoster q o n).rxLine = s.rxLine := by unfold State.raiseRoster; dsimp only; split <;> simp
@[simp] theorem State.raiseRoster_station (q : Byte) (o n : List RosterEntry) (s : State) :
    (s.raiseRoster q o n).station = s.station := by unfold State.raiseRoster; dsimp only; split <;> simp
@[simp] theorem State.raiseRoster_lease (q : Byte) (o n : List RosterEntry) (s : State) :
    (s.raiseRoster q o n).lease = s.lease := by unfold State.raiseRoster; dsimp only; split <;> simp
@[simp] theorem State.raiseRoster_claim (q : Byte) (o n : List RosterEntry) (s : State) :
    (s.raiseRoster q o n).claim = s.claim := by unfold State.raiseRoster; dsimp only; split <;> simp
@[simp] theorem State.raiseRoster_roll (q : Byte) (o n : List RosterEntry) (s : State) :
    (s.raiseRoster q o n).roll = s.roll := by unfold State.raiseRoster; dsimp only; split <;> simp
@[simp] theorem State.raiseRoster_ring (q : Byte) (o n : List RosterEntry) (s : State) :
    (s.raiseRoster q o n).ring = s.ring := by unfold State.raiseRoster; dsimp only; split <;> simp
@[simp] theorem State.raiseRoster_outbound (q : Byte) (o n : List RosterEntry) (s : State) :
    (s.raiseRoster q o n).outbound = s.outbound := by unfold State.raiseRoster; dsimp only; split <;> simp
@[simp] theorem State.raiseRoster_probe (q : Byte) (o n : List RosterEntry) (s : State) :
    (s.raiseRoster q o n).probe = s.probe := by unfold State.raiseRoster; dsimp only; split <;> simp
@[simp] theorem State.raiseRoster_pending (q : Byte) (o n : List RosterEntry) (s : State) :
    (s.raiseRoster q o n).pending = s.pending := by unfold State.raiseRoster; dsimp only; split <;> simp

/-! ### clearRelief -/

@[simp] theorem State.clearRelief_supplyLow (s : State) :
    (s.clearRelief).supplyLow = s.supplyLow := by unfold State.clearRelief; split <;> rfl
@[simp] theorem State.clearRelief_resetLow (s : State) :
    (s.clearRelief).resetLow = s.resetLow := by unfold State.clearRelief; split <;> rfl
@[simp] theorem State.clearRelief_porTimer (s : State) :
    (s.clearRelief).porTimer = s.porTimer := by unfold State.clearRelief; split <;> rfl
@[simp] theorem State.clearRelief_straps (s : State) :
    (s.clearRelief).straps = s.straps := by unfold State.clearRelief; split <;> rfl
@[simp] theorem State.clearRelief_rxLine (s : State) :
    (s.clearRelief).rxLine = s.rxLine := by unfold State.clearRelief; split <;> rfl
@[simp] theorem State.clearRelief_station (s : State) :
    (s.clearRelief).station = s.station := by unfold State.clearRelief; split <;> rfl
@[simp] theorem State.clearRelief_lease (s : State) :
    (s.clearRelief).lease = s.lease := by unfold State.clearRelief; split <;> rfl
@[simp] theorem State.clearRelief_claim (s : State) :
    (s.clearRelief).claim = s.claim := by unfold State.clearRelief; split <;> rfl
@[simp] theorem State.clearRelief_table (s : State) :
    (s.clearRelief).table = s.table := by unfold State.clearRelief; split <;> rfl
@[simp] theorem State.clearRelief_roll (s : State) :
    (s.clearRelief).roll = s.roll := by unfold State.clearRelief; split <;> rfl
@[simp] theorem State.clearRelief_outbound (s : State) :
    (s.clearRelief).outbound = s.outbound := by unfold State.clearRelief; split <;> rfl
@[simp] theorem State.clearRelief_probe (s : State) :
    (s.clearRelief).probe = s.probe := by unfold State.clearRelief; split <;> rfl
@[simp] theorem State.clearRelief_host (s : State) :
    (s.clearRelief).host = s.host := by unfold State.clearRelief; split <;> rfl
@[simp] theorem State.clearRelief_pending (s : State) :
    (s.clearRelief).pending = s.pending := by unfold State.clearRelief; split <;> rfl

/-! ### dequeueSent -/

@[simp] theorem State.dequeueSent_supplyLow (s : State) :
    (s.dequeueSent).supplyLow = s.supplyLow := State.clearRelief_supplyLow _
@[simp] theorem State.dequeueSent_resetLow (s : State) :
    (s.dequeueSent).resetLow = s.resetLow := State.clearRelief_resetLow _
@[simp] theorem State.dequeueSent_porTimer (s : State) :
    (s.dequeueSent).porTimer = s.porTimer := State.clearRelief_porTimer _
@[simp] theorem State.dequeueSent_straps (s : State) :
    (s.dequeueSent).straps = s.straps := State.clearRelief_straps _
@[simp] theorem State.dequeueSent_rxLine (s : State) :
    (s.dequeueSent).rxLine = s.rxLine := State.clearRelief_rxLine _
@[simp] theorem State.dequeueSent_station (s : State) :
    (s.dequeueSent).station = s.station := State.clearRelief_station _
@[simp] theorem State.dequeueSent_lease (s : State) :
    (s.dequeueSent).lease = s.lease := State.clearRelief_lease _
@[simp] theorem State.dequeueSent_claim (s : State) :
    (s.dequeueSent).claim = s.claim := State.clearRelief_claim _
@[simp] theorem State.dequeueSent_table (s : State) :
    (s.dequeueSent).table = s.table := State.clearRelief_table _
@[simp] theorem State.dequeueSent_roll (s : State) :
    (s.dequeueSent).roll = s.roll := State.clearRelief_roll _
@[simp] theorem State.dequeueSent_outbound (s : State) :
    (s.dequeueSent).outbound = s.outbound.tail := State.clearRelief_outbound _
@[simp] theorem State.dequeueSent_probe (s : State) :
    (s.dequeueSent).probe = s.probe := State.clearRelief_probe _
@[simp] theorem State.dequeueSent_host (s : State) :
    (s.dequeueSent).host = s.host := State.clearRelief_host _
@[simp] theorem State.dequeueSent_pending (s : State) :
    (s.dequeueSent).pending = s.pending := State.clearRelief_pending _

/-! ### removeRoll -/

@[simp] theorem State.removeRoll_supplyLow (s : State) :
    (s.removeRoll).supplyLow = s.supplyLow := State.clearRelief_supplyLow _
@[simp] theorem State.removeRoll_resetLow (s : State) :
    (s.removeRoll).resetLow = s.resetLow := State.clearRelief_resetLow _
@[simp] theorem State.removeRoll_porTimer (s : State) :
    (s.removeRoll).porTimer = s.porTimer := State.clearRelief_porTimer _
@[simp] theorem State.removeRoll_straps (s : State) :
    (s.removeRoll).straps = s.straps := State.clearRelief_straps _
@[simp] theorem State.removeRoll_rxLine (s : State) :
    (s.removeRoll).rxLine = s.rxLine := State.clearRelief_rxLine _
@[simp] theorem State.removeRoll_station (s : State) :
    (s.removeRoll).station = s.station := State.clearRelief_station _
@[simp] theorem State.removeRoll_lease (s : State) :
    (s.removeRoll).lease = s.lease := State.clearRelief_lease _
@[simp] theorem State.removeRoll_claim (s : State) :
    (s.removeRoll).claim = s.claim := State.clearRelief_claim _
@[simp] theorem State.removeRoll_table (s : State) :
    (s.removeRoll).table = s.table := State.clearRelief_table _
@[simp] theorem State.removeRoll_roll (s : State) :
    (s.removeRoll).roll = s.roll := State.clearRelief_roll _
@[simp] theorem State.removeRoll_outbound (s : State) :
    (s.removeRoll).outbound = s.outbound.filter (fun f => !f.frame.body.isRoll) := State.clearRelief_outbound _
@[simp] theorem State.removeRoll_probe (s : State) :
    (s.removeRoll).probe = s.probe := State.clearRelief_probe _
@[simp] theorem State.removeRoll_host (s : State) :
    (s.removeRoll).host = s.host := State.clearRelief_host _
@[simp] theorem State.removeRoll_pending (s : State) :
    (s.removeRoll).pending = s.pending := State.clearRelief_pending _

/-! ### offerForward -/

@[simp] theorem State.offerForward_supplyLow (f : Frame) (s : State) :
    (s.offerForward f).supplyLow = s.supplyLow := by unfold State.offerForward; split <;> rfl
@[simp] theorem State.offerForward_resetLow (f : Frame) (s : State) :
    (s.offerForward f).resetLow = s.resetLow := by unfold State.offerForward; split <;> rfl
@[simp] theorem State.offerForward_porTimer (f : Frame) (s : State) :
    (s.offerForward f).porTimer = s.porTimer := by unfold State.offerForward; split <;> rfl
@[simp] theorem State.offerForward_straps (f : Frame) (s : State) :
    (s.offerForward f).straps = s.straps := by unfold State.offerForward; split <;> rfl
@[simp] theorem State.offerForward_rxLine (f : Frame) (s : State) :
    (s.offerForward f).rxLine = s.rxLine := by unfold State.offerForward; split <;> rfl
@[simp] theorem State.offerForward_station (f : Frame) (s : State) :
    (s.offerForward f).station = s.station := by unfold State.offerForward; split <;> rfl
@[simp] theorem State.offerForward_lease (f : Frame) (s : State) :
    (s.offerForward f).lease = s.lease := by unfold State.offerForward; split <;> rfl
@[simp] theorem State.offerForward_claim (f : Frame) (s : State) :
    (s.offerForward f).claim = s.claim := by unfold State.offerForward; split <;> rfl
@[simp] theorem State.offerForward_table (f : Frame) (s : State) :
    (s.offerForward f).table = s.table := by unfold State.offerForward; split <;> rfl
@[simp] theorem State.offerForward_roll (f : Frame) (s : State) :
    (s.offerForward f).roll = s.roll := by unfold State.offerForward; split <;> rfl
@[simp] theorem State.offerForward_outbound (f : Frame) (s : State) :
    (s.offerForward f).outbound = s.outbound := by unfold State.offerForward; split <;> rfl
@[simp] theorem State.offerForward_probe (f : Frame) (s : State) :
    (s.offerForward f).probe = s.probe := by unfold State.offerForward; split <;> rfl
@[simp] theorem State.offerForward_host (f : Frame) (s : State) :
    (s.offerForward f).host = s.host := by unfold State.offerForward; split <;> rfl
@[simp] theorem State.offerForward_pending (f : Frame) (s : State) :
    (s.offerForward f).pending = s.pending := by unfold State.offerForward; split <;> rfl

/-! ### forward -/

@[simp] theorem State.forward_supplyLow (f : Frame) (b : Body) (s : State) :
    (s.forward f b).supplyLow = s.supplyLow := State.offerForward_supplyLow _ s
@[simp] theorem State.forward_resetLow (f : Frame) (b : Body) (s : State) :
    (s.forward f b).resetLow = s.resetLow := State.offerForward_resetLow _ s
@[simp] theorem State.forward_porTimer (f : Frame) (b : Body) (s : State) :
    (s.forward f b).porTimer = s.porTimer := State.offerForward_porTimer _ s
@[simp] theorem State.forward_straps (f : Frame) (b : Body) (s : State) :
    (s.forward f b).straps = s.straps := State.offerForward_straps _ s
@[simp] theorem State.forward_rxLine (f : Frame) (b : Body) (s : State) :
    (s.forward f b).rxLine = s.rxLine := State.offerForward_rxLine _ s
@[simp] theorem State.forward_station (f : Frame) (b : Body) (s : State) :
    (s.forward f b).station = s.station := State.offerForward_station _ s
@[simp] theorem State.forward_lease (f : Frame) (b : Body) (s : State) :
    (s.forward f b).lease = s.lease := State.offerForward_lease _ s
@[simp] theorem State.forward_claim (f : Frame) (b : Body) (s : State) :
    (s.forward f b).claim = s.claim := State.offerForward_claim _ s
@[simp] theorem State.forward_table (f : Frame) (b : Body) (s : State) :
    (s.forward f b).table = s.table := State.offerForward_table _ s
@[simp] theorem State.forward_roll (f : Frame) (b : Body) (s : State) :
    (s.forward f b).roll = s.roll := State.offerForward_roll _ s
@[simp] theorem State.forward_outbound (f : Frame) (b : Body) (s : State) :
    (s.forward f b).outbound = s.outbound := State.offerForward_outbound _ s
@[simp] theorem State.forward_probe (f : Frame) (b : Body) (s : State) :
    (s.forward f b).probe = s.probe := State.offerForward_probe _ s
@[simp] theorem State.forward_host (f : Frame) (b : Body) (s : State) :
    (s.forward f b).host = s.host := State.offerForward_host _ s
@[simp] theorem State.forward_pending (f : Frame) (b : Body) (s : State) :
    (s.forward f b).pending = s.pending := State.offerForward_pending _ s

end Sys2Proof.Machine
end

