-- ==== Sys2Proof/Laws/Examination.lean ====
section
/-! SUPPORT. Everything an examination, a give-back or a re-examination can do to the station, said once (`Served`): it queues frames, adds
claims, and takes this station's name from holders; it leaves the other blocks alone. -/

namespace Sys2Proof.Machine

/-- What the service of waiting slots can do to a state. -/
structure Served (s t : State) : Prop where
  station   : t.station = s.station
  roll      : t.roll = s.roll
  ring      : t.ring = s.ring
  probe     : t.probe = s.probe
  host      : t.host = s.host
  pending   : t.pending = s.pending
  rxLine    : t.rxLine = s.rxLine
  supplyLow : t.supplyLow = s.supplyLow
  resetLow  : t.resetLow = s.resetLow
  porTimer  : t.porTimer = s.porTimer
  straps    : t.straps = s.straps
  outbound  : ∃ fs, t.outbound = s.outbound ++ fs
  claims    : ∃ cs, t.claim.claims = s.claim.claims ++ cs
  holds     : t.lease.holds.map HoldEntry.resource = s.lease.holds.map HoldEntry.resource
  holders   : ∀ k y, y ∈ (t.lease.record k).holders → y ∈ (s.lease.record k).holders
  intents   : ∀ k, (t.lease.record k).intents = (s.lease.record k).intents
  faults    : t.table.faults = s.table.faults

namespace Served

theorem refl (s : State) : Served s s :=
  ⟨rfl, rfl, rfl, rfl, rfl, rfl, rfl, rfl, rfl, rfl, rfl, ⟨[], by simp⟩, ⟨[], by simp⟩, rfl, fun _ _ => id, fun _ => rfl, rfl⟩

theorem trans {s t u : State} (h : Served s t) (g : Served t u) : Served s u where
  station := g.station.trans h.station
  roll := g.roll.trans h.roll
  ring := g.ring.trans h.ring
  probe := g.probe.trans h.probe
  host := g.host.trans h.host
  pending := g.pending.trans h.pending
  rxLine := g.rxLine.trans h.rxLine
  supplyLow := g.supplyLow.trans h.supplyLow
  resetLow := g.resetLow.trans h.resetLow
  porTimer := g.porTimer.trans h.porTimer
  straps := g.straps.trans h.straps
  outbound := by
    obtain ⟨a, ha⟩ := h.outbound; obtain ⟨b, hb⟩ := g.outbound
    exact ⟨a ++ b, by rw [hb, ha, List.append_assoc]⟩
  claims := by
    obtain ⟨a, ha⟩ := h.claims; obtain ⟨b, hb⟩ := g.claims
    exact ⟨a ++ b, by rw [hb, ha, List.append_assoc]⟩
  holds := g.holds.trans h.holds
  holders := fun k y hy => h.holders k y (g.holders k y hy)
  intents := fun k => (g.intents k).trans (h.intents k)
  faults := g.faults.trans h.faults

/-- A change of the Request Table that leaves the fault flags. -/
theorem table (s : State) (f : RequestTable → RequestTable) (hf : (f s.table).faults = s.table.faults) : Served s (s.mapTable f) :=
  ⟨rfl, rfl, rfl, rfl, rfl, rfl, rfl, rfl, rfl, rfl, rfl, ⟨[], by simp⟩, ⟨[], by simp⟩, rfl, fun _ _ => id, fun _ => rfl, hf⟩

theorem finish (s : State) (i : SlotIx) (st : Status) (c : Content) : Served s (s.finish i st c) :=
  table s _ (RequestTable.finish_faults ..)

theorem map_modifyHold (k : Resource) (f : HoldEntry → HoldEntry) (hf : ∀ e, (f e).resource = e.resource) (hs : List HoldEntry) :
    (hs.map (fun e => if e.resource = k then f e else e)).map HoldEntry.resource = hs.map HoldEntry.resource := by
  rw [List.map_map]
  apply List.map_congr_left
  intro e _
  simp only [Function.comp]
  split
  · exact hf e
  · rfl

/-- The clients of a hold change. -/
theorem hold (s : State) (k : Resource) (f : HoldEntry → HoldEntry) (hf : ∀ e, (f e).resource = e.resource) :
    Served s (s.mapLease (fun l => l.modifyHold k f)) :=
  ⟨rfl, rfl, rfl, rfl, rfl, rfl, rfl, rfl, rfl, rfl, rfl, ⟨[], by simp⟩, ⟨[], by simp⟩, map_modifyHold k f hf _, fun _ _ => id, fun _ => rfl, rfl⟩

/-- A hold is released (R64). -/
theorem releaseHold (s : State) (e : HoldEntry) (n : List Byte) (i : SlotIx) (c : Option Completion) :
    Served s (s.releaseHold e n i c) where
  station := rfl
  roll := rfl
  ring := rfl
  probe := rfl
  host := rfl
  pending := rfl
  rxLine := rfl
  supplyLow := rfl
  resetLow := rfl
  porTimer := rfl
  straps := rfl
  outbound := ⟨_, rfl⟩
  claims := ⟨[], by simp [State.releaseHold, State.enqueue]⟩
  holds := map_modifyHold e.resource HoldEntry.toReleasing (fun _ => rfl) _
  holders := by
    intro k y hy
    have hr : ((State.releaseHold e n i c s).lease.record k) =
        if e.resource = k then (s.lease.record e.resource).release s.station.address e.mode n else s.lease.record k := by
      simp only [State.releaseHold, LeaseTable.ownRelease, LeaseTable.record_modify, LeaseTable.record_modifyHold]
    rw [hr] at hy
    split at hy
    · rename_i hk; subst hk
      revert hy
      cases e.mode <;> simp only [ResourceRecord.release, ResourceRecord.releaseNote, ResourceRecord.dropHolder] <;>
        exact fun hy => (List.mem_filter.1 hy).1
    · exact hy
  intents := by
    intro k
    have hr : ((State.releaseHold e n i c s).lease.record k) =
        if e.resource = k then (s.lease.record e.resource).release s.station.address e.mode n else s.lease.record k := by
      simp only [State.releaseHold, LeaseTable.ownRelease, LeaseTable.record_modify, LeaseTable.record_modifyHold]
    rw [hr]
    split
    · rename_i hk; subst hk
      cases e.mode <;> rfl
    · rfl
  faults := RequestTable.modifySlot_faults ..

/-- A claim is issued (R34). -/
theorem issueClaim (s : State) (i : SlotIx) (a : Acquire) : Served s (s.issueClaim i a) :=
  ⟨rfl, rfl, rfl, rfl, rfl, rfl, rfl, rfl, rfl, rfl, rfl, ⟨_, rfl⟩, ⟨_, rfl⟩, rfl, fun _ _ => id, fun _ => rfl,
    RequestTable.modifySlot_faults ..⟩

theorem giveBack (s : State) (i : SlotIx) (st : Status) : Served s (s.giveBack i st).1 := by
  unfold State.giveBack; split
  · exact .refl _
  · split
    · exact .refl _
    · dsimp only; split
      · exact .finish ..
      · split
        · split
          · exact .releaseHold ..
          · exact (Served.hold s _ (HoldEntry.dropClient _) (fun _ => rfl)).trans (.finish ..)
        · exact .finish ..

theorem failAcquire (s : State) (i : SlotIx) (st : Status) : Served s (s.failAcquire i st).1 := by
  unfold State.failAcquire; split
  · exact .refl _
  · split
    · exact .finish ..
    · exact .giveBack ..

theorem succeedAcquire (s : State) (i : SlotIx) : Served s (s.succeedAcquire i).1 := by
  unfold State.succeedAcquire; split
  · exact .refl _
  · split
    · exact .refl _
    · exact .finish ..

theorem localJoin (s : State) (i : SlotIx) (sl : Slot) (a : Acquire) : Served s (s.localJoin i sl a) :=
  (Served.hold s _ (HoldEntry.addClient _) (fun _ => rfl)).trans (.table _ _ (RequestTable.modifySlot_faults ..))

theorem beginStage2 (s : State) (i : SlotIx) : Served s (s.beginStage2 i).1 :=
  .table _ _ (RequestTable.modifySlot_faults ..)

theorem examineOnce (s : State) (i : SlotIx) : Served s (s.examineOnce i).1 := by
  unfold State.examineOnce; split
  · exact .refl _
  · split
    · exact .refl _
    · split
      · dsimp only; split
        · exact (Served.localJoin ..).trans (.beginStage2 ..)
        · exact (Served.localJoin ..).trans (.succeedAcquire ..)
      · split
        · exact .refl _
        · exact .failAcquire ..
      · exact .failAcquire ..
      · exact .issueClaim ..
      · exact .refl _

theorem examine (s : State) (i : SlotIx) : Served s (s.examine i).1 := by
  unfold State.examine; dsimp only; split
  · exact (Served.examineOnce ..).trans (.examineOnce ..)
  · exact .examineOnce ..

theorem passes (n : Nat) (w : Work) (s : State) : Served s (s.passes n w) := by
  induction n generalizing w s with
  | zero => unfold State.passes; exact .refl _
  | succ n ih =>
    cases w with
    | nil => exact .refl _
    | cons p w =>
      obtain ⟨i, k⟩ := p
      unfold State.passes; split
      · exact (Served.examine ..).trans (ih ..)
      · exact ih ..

theorem reexamine (w : Work) (s : State) : Served s (s.reexamine w) := .passes ..

theorem reexamined (p : State × Work) : Served p.1 (Machine.reexamined p) := .reexamine ..

/-- The end of LEAVING does not come of the service of waiting slots. -/
theorem leavingDone {s t : State} (h : Served s t) (hl : s.leavingDone = false) : t.leavingDone = false := by
  obtain ⟨fs, hf⟩ := h.outbound
  obtain ⟨cs, hc⟩ := h.claims
  have hh : t.lease.holds = [] ↔ s.lease.holds = [] := by
    rw [← List.map_eq_nil_iff (f := HoldEntry.resource), h.holds, List.map_eq_nil_iff]
  simp only [State.leavingDone, h.station, hf, hc] at *
  cases hs : decide (s.station.state = .leaving) <;> simp_all

end Served

/-- No work, no examination. -/
@[simp] theorem State.reexamine_nil (s : State) : s.reexamine [] = s := rfl

/-! ### Slots that do not wait -/

/-- An occupied slot that does not wait keeps everything but its acceptance number. -/
structure Settled (i : SlotIx) (s t : State) : Prop where
  slot : ∀ sl, s.table.slot i = some sl → sl.waitsFor = none → ∃ n, t.table.slot i = some { sl with accept := n }

namespace Settled

theorem of_othersKept {i j : SlotIx} {s t : State} (hij : i ≠ j) (h : RequestTable.OthersKept j s.table t.table) : Settled i s t := by
  refine ⟨fun sl hs _ => ?_⟩
  have := h.slot i hij
  rw [hs] at this
  cases ht : t.table.slot i with
  | none => rw [ht] at this; cases this
  | some x =>
    rw [ht] at this
    simp only [Option.map_some, Option.some.injEq] at this
    refine ⟨x.accept, ?_⟩
    obtain ⟨a, b, c, d, e, f, g⟩ := x
    obtain ⟨a', b', c', d', e', f', g'⟩ := sl
    simp only [Slot.mk.injEq] at this ⊢
    obtain ⟨rfl, rfl, rfl, rfl, -, rfl, rfl⟩ := this
    rfl

theorem trans {i : SlotIx} {s t u : State} (h : Settled i s t) (g : Settled i t u) : Settled i s u := by
  refine ⟨fun sl hs hw => ?_⟩
  obtain ⟨n, hn⟩ := h.slot sl hs hw
  obtain ⟨m, hm⟩ := g.slot _ hn hw
  exact ⟨m, hm⟩

theorem refl (i : SlotIx) (s : State) : Settled i s s := ⟨fun sl hs _ => ⟨sl.accept, hs⟩⟩

end Settled

/-- A change of one slot's service leaves every other slot. -/
theorem othersKept_giveBack (i : SlotIx) (st : Status) (s : State) : RequestTable.OthersKept i s.table (s.giveBack i st).1.table := by
  unfold State.giveBack; split
  · exact .refl ..
  · split
    · exact .refl ..
    · dsimp only; split
      · exact .finish ..
      · split
        · split
          · exact .modifySlot ..
          · exact .finish ..
        · exact .finish ..

theorem othersKept_failAcquire (i : SlotIx) (st : Status) (s : State) :
    RequestTable.OthersKept i s.table (s.failAcquire i st).1.table := by
  unfold State.failAcquire; split
  · exact .refl ..
  · split
    · exact .finish ..
    · exact othersKept_giveBack ..

theorem othersKept_succeedAcquire (i : SlotIx) (s : State) : RequestTable.OthersKept i s.table (s.succeedAcquire i).1.table := by
  unfold State.succeedAcquire; split
  · exact .refl ..
  · split
    · exact .refl ..
    · exact .finish ..

theorem othersKept_examineOnce (i : SlotIx) (s : State) : RequestTable.OthersKept i s.table (s.examineOnce i).1.table := by
  unfold State.examineOnce; split
  · exact .refl ..
  · split
    · exact .refl ..
    · rename_i sl _ _ a _
      have hj : RequestTable.OthersKept i s.table (s.localJoin i sl a).table := RequestTable.OthersKept.modifySlot ..
      split
      · dsimp only; split
        · exact hj.trans (.modifySlot ..)
        · exact hj.trans (othersKept_succeedAcquire ..)
      · split
        · exact .refl ..
        · exact othersKept_failAcquire ..
      · exact othersKept_failAcquire ..
      · exact .modifySlot ..
      · exact .refl ..

theorem othersKept_examine (i : SlotIx) (s : State) : RequestTable.OthersKept i s.table (s.examine i).1.table := by
  unfold State.examine; dsimp only; split
  · exact (othersKept_examineOnce ..).trans (othersKept_examineOnce ..)
  · exact othersKept_examineOnce ..

/-- A slot that an event names and finds waiting waits. -/
theorem RequestTable.stillNamed_waits {i : SlotIx} {k : Option Resource} {t : RequestTable} (h : t.stillNamed i k = true) :
    ∃ sl, t.slot i = some sl ∧ sl.waitsFor ≠ none := by
  unfold RequestTable.stillNamed at h
  split at h
  · cases h
  · rename_i sl hs
    refine ⟨sl, hs, ?_⟩
    intro hn
    rw [hn] at h
    split at h <;> simp_all

theorem Settled.passes (i : SlotIx) (n : Nat) (w : Work) (s : State) : Settled i s (s.passes n w) := by
  induction n generalizing w s with
  | zero => unfold State.passes; exact .refl ..
  | succ n ih =>
    cases w with
    | nil => exact .refl ..
    | cons p w =>
      obtain ⟨j, k⟩ := p
      unfold State.passes; split
      · rename_i h
        obtain ⟨sl, hs, hw⟩ := RequestTable.stillNamed_waits ((Bool.and_eq_true _ _).mp h).2
        by_cases e : i = j
        · subst e
          refine ⟨fun x hx hx' => ?_⟩
          rw [hs] at hx; cases hx
          exact absurd hx' hw
        · exact (Settled.of_othersKept e (othersKept_examine j s)).trans (ih ..)
      · exact ih ..

/-- Re-examination leaves every slot that does not wait, its acceptance number apart (R92). -/
theorem Settled.reexamine (i : SlotIx) (w : Work) (s : State) : Settled i s (s.reexamine w) := .passes ..

end Sys2Proof.Machine
end

