-- ==== Sys2Proof/Laws/Exec.lean ====
section
/-! SUPPORT. What the choice at the end of a change can do, when a frame is taken, and what each command answers outside reset, in one
equation; the three power commands have theirs by definition. -/

namespace Sys2Proof.Machine

/-! ### The choice at the end of a change -/

/-- A change that brings no frame leaves the transmitter alone. -/
theorem State.startIdle_quiet (s b : State) (h : s.outbound = b.outbound) (g : s.ring.forwarding = b.ring.forwarding) :
    s.startIdle b = s := by
  unfold State.startIdle; split
  · rename_i c
    simp only [State.noFrame, Bool.and_eq_true, List.isEmpty_iff, decide_eq_true_eq] at c
    have hn : s.choice = .none := by simp [State.choice, h, g, c.1.1, c.1.2]
    have hc : s.chosen = s.ring := by
      unfold State.chosen; rw [hn, ← c.2]
    rw [hc]
  · rfl

/-- A transmitter that is not idle makes no choice at the end of a change. -/
theorem State.startIdle_busy (s b : State) (h : s.ring.transmitter ≠ .idle) : s.startIdle b = s := by simp [State.startIdle, h]

/-- With a frame available before the change none becomes available by it. -/
theorem State.startIdle_waiting (s b : State) (h : b.noFrame = false) : s.startIdle b = s := by simp [State.startIdle, h]

/-- The choice at the end of a change is the transmitter's own choice where it is idle and nothing was to send before. -/
theorem State.startIdle_chooses (s b : State) (h : b.noFrame = true) (hi : s.ring.transmitter = .idle) : s.startIdle b = s.choose := by
  simp [State.startIdle, h, hi, State.choose]

/-- The choice at the end of a change touches the transmitter and the relief counter alone. -/
theorem State.startIdle_changes (s b : State) : ∃ x n, s.startIdle b = { s with ring := { s.ring with transmitter := x, relief := n } } := by
  unfold State.startIdle; split
  · unfold State.chosen; split <;> exact ⟨_, _, rfl⟩
  · exact ⟨_, _, rfl⟩

/-! ### The commands -/

/-- Outside reset a command has its effect. -/
theorem State.run_running (s : State) (f : State → State) (h : s.inReset = false) : s.run f = .next ((f s).startIdle s) := by
  simp [State.run, h]

/-- Outside reset a command that brings no frame has its effect and nothing more. -/
theorem State.run_quiet (s : State) (f : State → State) (h : s.inReset = false) (ho : (f s).outbound = s.outbound)
    (hf : (f s).ring.forwarding = s.ring.forwarding) : s.run f = .next (f s) := by
  rw [State.run_running s f h, State.startIdle_quiet _ _ ho hf]

/-- In reset a command changes nothing. -/
theorem State.run_held (s : State) (f : State → State) (h : s.inReset = true) : s.run f = .next s := by
  simp [State.run, h]

/-- Outside reset a write whose strobe is long enough has its effect. -/
theorem State.runWrite_running (s : State) (y : Strobe) (f : State → State) (h : s.inReset = false) (hy : y.wf = true) :
    s.runWrite y f = .next ((f s).startIdle s) := by
  simp [State.runWrite, State.run, h, hy]

/-- Outside reset such a write that brings no frame has its effect and nothing more. -/
theorem State.runWrite_quiet (s : State) (y : Strobe) (f : State → State) (h : s.inReset = false) (hy : y.wf = true)
    (ho : (f s).outbound = s.outbound) (hf : (f s).ring.forwarding = s.ring.forwarding) : s.runWrite y f = .next (f s) := by
  rw [State.runWrite_running s y f h hy, State.startIdle_quiet _ _ ho hf]

/-- A write whose strobe is too short changes nothing. -/
theorem State.runWrite_short (s : State) (y : Strobe) (f : State → State) (hy : y.wf = false) : s.runWrite y f = .next s := by
  simp [State.runWrite, hy]

/-- Outside reset a read whose strobe is long enough, and no write as well, has its effect. -/
theorem State.runRead_running (s : State) (y : Strobe) (f : State → State) (h : s.inReset = false) (hy : y.wf = true) (hb : y.both = false) :
    s.runRead y f = .next (f s) := by
  simp [State.runRead, h, hy, hb]

/-- The choice takes no frame out of the forwarding queue. -/
theorem State.chosen_forwarding (s : State) : s.chosen.forwarding = s.ring.forwarding := by
  unfold State.chosen; split <;> rfl

/-- The choice of the next frame is not followed by another. -/
theorem State.transmitChoice_startIdle (s : State) : s.transmitChoice.startIdle s = s.transmitChoice := by
  by_cases hn : s.noFrame = true
  · have hn' := hn
    simp only [State.noFrame, Bool.and_eq_true, List.isEmpty_iff] at hn'
    refine State.startIdle_quiet _ _ ?_ ?_
    · unfold State.transmitChoice; split <;> rfl
    · unfold State.transmitChoice; split <;> simp only [State.choose_ring, State.chosen_forwarding, State.dropForwarded, hn'.2, List.tail_nil]
  · exact State.startIdle_waiting _ _ (by simpa using hn)

/-- A frame is taken on the ring, with the link UP or where it stands at the head of those in processing time (R161, R165). -/
theorem State.canReceive_iff (l : List Byte) (s : State) : s.canReceive l = true ↔
    s.station.state.onRing = true ∧ (s.ring.linkUp = true ∨ s.ring.processing.head?.map Arrived.bytes = some l) := by
  have : s.inProcessing l = true ↔ s.ring.processing.head?.map Arrived.bytes = some l := by
    unfold State.inProcessing; cases s.ring.processing <;> simp
  simp only [State.canReceive, Bool.and_eq_true, Bool.or_eq_true, this]

/-- A framing discard brings no frame. -/
theorem State.discardFraming_quiet (c : FramingCause) (s : State) :
    (s.discardFraming c).outbound = s.outbound ∧ (s.discardFraming c).ring.forwarding = s.ring.forwarding := by
  unfold State.discardFraming; split
  · exact ⟨rfl, rfl⟩
  · split <;> exact ⟨rfl, rfl⟩

/-- A frame that fails the format check brings no frame. -/
theorem State.receiveBad_quiet (l : List Byte) (s : State) :
    (s.receiveBad l).outbound = s.outbound ∧ (s.receiveBad l).ring.forwarding = s.ring.forwarding := by
  unfold State.receiveBad; split
  · unfold State.arrive; split <;> exact ⟨rfl, rfl⟩
  · exact ⟨rfl, rfl⟩

theorem exec_requestAssemblyByte (b : Byte) (y : Strobe) (s : State) (h : s.inReset = false) (hy : y.wf = true) :
    exec (.requestAssemblyByte b y) s = .next ((s.requestByte b).startIdle s) := State.runWrite_running s y (fun s => s.requestByte b) h hy

theorem exec_configure (r : HostRecord) (s : State) (h : s.inReset = false) :
    exec (.configure r) s = .next ((s.commit .configure r).startIdle s) := State.run_running s (fun s => s.commit .configure r) h

theorem exec_acquire (r : HostRecord) (s : State) (h : s.inReset = false) :
    exec (.acquire r) s = .next ((s.commit .acquire r).startIdle s) := State.run_running s (fun s => s.commit .acquire r) h

theorem exec_release (r : HostRecord) (s : State) (h : s.inReset = false) :
    exec (.release r) s = .next ((s.commit .release r).startIdle s) := State.run_running s (fun s => s.commit .release r) h

theorem exec_cancel (r : HostRecord) (s : State) (h : s.inReset = false) :
    exec (.cancel r) s = .next ((s.commit .cancel r).startIdle s) := State.run_running s (fun s => s.commit .cancel r) h

theorem exec_query (r : HostRecord) (s : State) (h : s.inReset = false) :
    exec (.query r) s = .next ((s.commit .query r).startIdle s) := State.run_running s (fun s => s.commit .query r) h

theorem exec_stats (r : HostRecord) (s : State) (h : s.inReset = false) :
    exec (.stats r) s = .next ((s.commit .stats r).startIdle s) := State.run_running s (fun s => s.commit .stats r) h

theorem exec_clearFault (r : HostRecord) (s : State) (h : s.inReset = false) :
    exec (.clearFault r) s = .next ((s.commit .clearFault r).startIdle s) := State.run_running s (fun s => s.commit .clearFault r) h

theorem exec_leave (r : HostRecord) (s : State) (h : s.inReset = false) :
    exec (.leave r) s = .next ((s.commit .leave r).startIdle s) := State.run_running s (fun s => s.commit .leave r) h

theorem exec_restart (r : HostRecord) (s : State) (h : s.inReset = false) :
    exec (.restart r) s = .next ((s.commit .restart r).startIdle s) := State.run_running s (fun s => s.commit .restart r) h

theorem exec_abandon (b : Byte) (y : Strobe) (s : State) (h : s.inReset = false) (hy : y.wf = true) :
    exec (.abandon b y) s = .next (s.statusWrite (b ||| 0x80)) := State.runWrite_quiet s y (fun s => s.statusWrite (b ||| 0x80)) h hy rfl rfl

theorem exec_clearRefused (b : Byte) (y : Strobe) (s : State) (h : s.inReset = false) (hy : y.wf = true) :
    exec (.clearRefused b y) s = .next (s.statusWrite (b ||| 0x01)) := State.runWrite_quiet s y (fun s => s.statusWrite (b ||| 0x01)) h hy rfl rfl

theorem exec_clearNoticeLost (b : Byte) (y : Strobe) (s : State) (h : s.inReset = false) (hy : y.wf = true) :
    exec (.clearNoticeLost b y) s = .next (s.statusWrite (b ||| 0x02)) := State.runWrite_quiet s y (fun s => s.statusWrite (b ||| 0x02)) h hy rfl rfl

theorem exec_clearProbeDone (b : Byte) (y : Strobe) (s : State) (h : s.inReset = false) (hy : y.wf = true) :
    exec (.clearProbeDone b y) s = .next (s.statusWrite (b ||| 0x04)) := State.runWrite_quiet s y (fun s => s.statusWrite (b ||| 0x04)) h hy rfl rfl

theorem exec_clearProbeBusy (b : Byte) (y : Strobe) (s : State) (h : s.inReset = false) (hy : y.wf = true) :
    exec (.clearProbeBusy b y) s = .next (s.statusWrite (b ||| 0x08)) := State.runWrite_quiet s y (fun s => s.statusWrite (b ||| 0x08)) h hy rfl rfl

theorem exec_intmaskWrite (b : Byte) (y : Strobe) (s : State) (h : s.inReset = false) (hy : y.wf = true) :
    exec (.intmaskWrite b y) s = .next (s.intmaskWrite b) := State.runWrite_quiet s y (fun s => s.intmaskWrite b) h hy rfl rfl

theorem exec_completionRead (n : Bool) (y : Strobe) (s : State) (h : s.inReset = false) (hy : y.wf = true) (hb : y.both = false) :
    exec (.completionRead n y) s = .next (s.readCompletion n) := State.runRead_running s y (fun s => s.readCompletion n) h hy hb

theorem exec_probeTimeLoRead (y : Strobe) (s : State) (h : s.inReset = false) (hy : y.wf = true) (hb : y.both = false) :
    exec (.probeTimeLoRead y) s = .next (s.readProbeLo) := State.runRead_running s y (fun s => s.readProbeLo) h hy hb

theorem exec_probe (b : Byte) (y : Strobe) (s : State) (h : s.inReset = false) (hy : y.wf = true) :
    exec (.probe b y) s = .next ((s.probeWrite).startIdle s) := State.runWrite_running s y (fun s => s.probeWrite) h hy

theorem exec_ignoredWrite (a : IgnoredPort) (b : Byte) (y : Strobe) (s : State) (h : s.inReset = false) (hy : y.wf = true) :
    exec (.ignoredWrite a b y) s = .next (s) := State.runWrite_quiet s y (fun s => s) h hy rfl rfl

theorem exec_frameStart (s : State) (h : s.inReset = false) :
    exec (.frameStart) s = .next (s.startFrame) := State.run_quiet s (fun s => s.startFrame) h (by unfold State.startFrame; split <;> rfl) (by unfold State.startFrame; split <;> rfl)

theorem exec_framingDiscard (c : FramingCause) (s : State) (h : s.inReset = false) :
    exec (.framingDiscard c) s = .next (s.discardFraming c) := State.run_quiet s (fun s => s.discardFraming c) h (s.discardFraming_quiet c).1 (s.discardFraming_quiet c).2

theorem exec_formatDiscard (l : List Byte) (s : State) (h : s.inReset = false) :
    exec (.formatDiscard l) s = .next (s.receiveBad l) := State.run_quiet s (fun s => s.receiveBad l) h (s.receiveBad_quiet l).1 (s.receiveBad_quiet l).2

theorem exec_claimReceipt (o : StationAddr) (p : Byte) (b : ClaimBody) (s : State) (h : s.inReset = false) :
    exec (.claimReceipt o p b) s = .next ((s.receive { origin := o, hop := p, body := .claim b }).startIdle s) := State.run_running s (fun s => s.receive { origin := o, hop := p, body := .claim b }) h

theorem exec_settleReceipt (o : StationAddr) (p : Byte) (b : SettleBody) (s : State) (h : s.inReset = false) :
    exec (.settleReceipt o p b) s = .next ((s.receive { origin := o, hop := p, body := .settle b }).startIdle s) := State.run_running s (fun s => s.receive { origin := o, hop := p, body := .settle b }) h

theorem exec_releaseReceipt (o : StationAddr) (p : Byte) (b : ReleaseBody) (s : State) (h : s.inReset = false) :
    exec (.releaseReceipt o p b) s = .next ((s.receive { origin := o, hop := p, body := .release b }).startIdle s) := State.run_running s (fun s => s.receive { origin := o, hop := p, body := .release b }) h

theorem exec_rollReceipt (o : StationAddr) (p : Byte) (b : RollBody) (s : State) (h : s.inReset = false) :
    exec (.rollReceipt o p b) s = .next ((s.receive { origin := o, hop := p, body := .roll b }).startIdle s) := State.run_running s (fun s => s.receive { origin := o, hop := p, body := .roll b }) h

theorem exec_rosterReceipt (o : StationAddr) (p : Byte) (b : RosterBody) (s : State) (h : s.inReset = false) :
    exec (.rosterReceipt o p b) s = .next ((s.receive { origin := o, hop := p, body := .roster b }).startIdle s) := State.run_running s (fun s => s.receive { origin := o, hop := p, body := .roster b }) h

theorem exec_probeForward (o : StationAddr) (p : Byte) (b : Byte) (s : State) (h : s.inReset = false) :
    exec (.probeForward o p b) s = .next ((s.receive { origin := o, hop := p, body := .probe b }).startIdle s) := State.run_running s (fun s => s.receive { origin := o, hop := p, body := .probe b }) h

theorem exec_ownClaimReturn (p : Byte) (b : ClaimBody) (s : State) (h : s.inReset = false) :
    exec (.ownClaimReturn p b) s = .next ((s.receive { origin := s.station.address, hop := p, body := .claim b }).startIdle s) := State.run_running s (fun s => s.receive { origin := s.station.address, hop := p, body := .claim b }) h

theorem exec_ownRollReturn (p : Byte) (b : RollBody) (s : State) (h : s.inReset = false) :
    exec (.ownRollReturn p b) s = .next ((s.receive { origin := s.station.address, hop := p, body := .roll b }).startIdle s) := State.run_running s (fun s => s.receive { origin := s.station.address, hop := p, body := .roll b }) h

theorem exec_ownProbeReturn (p : Byte) (b : Byte) (s : State) (h : s.inReset = false) :
    exec (.ownProbeReturn p b) s = .next ((s.receive { origin := s.station.address, hop := p, body := .probe b }).startIdle s) := State.run_running s (fun s => s.receive { origin := s.station.address, hop := p, body := .probe b }) h

theorem exec_ownFrameStripped (p : Byte) (b : StrippedBody) (s : State) (h : s.inReset = false) :
    exec (.ownFrameStripped p b) s = .next ((s.receive { origin := s.station.address, hop := p, body := b.toBody }).startIdle s) := State.run_running s (fun s => s.receive { origin := s.station.address, hop := p, body := b.toBody }) h

theorem exec_transmitChoice (s : State) (h : s.inReset = false) : exec .transmitChoice s = .next s.transmitChoice := by
  have := State.run_running s State.transmitChoice h
  rw [State.transmitChoice_startIdle] at this; exact this

theorem exec_claimTransmitted (s : State) (h : s.inReset = false) :
    exec (.claimTransmitted) s = .next ((s.ownSent 0x51 State.reportClaim).startIdle s) := State.run_running s (fun s => s.ownSent 0x51 State.reportClaim) h

theorem exec_settleTransmitted (s : State) (h : s.inReset = false) :
    exec (.settleTransmitted) s = .next ((s.ownSent 0x52 State.reportSettle).startIdle s) := State.run_running s (fun s => s.ownSent 0x52 State.reportSettle) h

theorem exec_releaseTransmitted (s : State) (h : s.inReset = false) :
    exec (.releaseTransmitted) s = .next ((s.ownSent 0x53 State.reportRelease).startIdle s) := State.run_running s (fun s => s.ownSent 0x53 State.reportRelease) h

theorem exec_rollTransmitted (s : State) (h : s.inReset = false) :
    exec (.rollTransmitted) s = .next ((s.ownSent 0x54 State.reportRoll).startIdle s) := State.run_running s (fun s => s.ownSent 0x54 State.reportRoll) h

theorem exec_rosterTransmitted (s : State) (h : s.inReset = false) :
    exec (.rosterTransmitted) s = .next ((s.ownSent 0x55 State.reportRoster).startIdle s) := State.run_running s (fun s => s.ownSent 0x55 State.reportRoster) h

theorem exec_probeTransmitted (s : State) (h : s.inReset = false) :
    exec (.probeTransmitted) s = .next ((s.ownSent 0x56 State.reportProbe).startIdle s) := State.run_running s (fun s => s.ownSent 0x56 State.reportProbe) h

theorem exec_heldOrigination (s : State) (h : s.inReset = false) :
    exec (.heldOrigination) s = .next ((s.makeHeld).startIdle s) := State.run_running s (fun s => s.makeHeld) h

theorem exec_linkUp (s : State) (h : s.inReset = false) :
    exec (.linkUp) s = .next ((s.reportUp).startIdle s) := State.run_running s (fun s => s.reportUp) h

theorem exec_linkDown (s : State) (h : s.inReset = false) :
    exec (.linkDown) s = .next ((s.reportDown).startIdle s) := State.run_running s (fun s => s.reportDown) h

theorem exec_circuitTimeout (q : Byte) (s : State) (h : s.inReset = false) :
    exec (.circuitTimeout q) s = .next ((s.circuitExpires q).startIdle s) := State.run_running s (fun s => s.circuitExpires q) h

theorem exec_intentExpiry (k : Resource) (x : StationAddr) (s : State) (h : s.inReset = false) :
    exec (.intentExpiry k x) s = .next ((s.intentExpires k x).startIdle s) := State.run_running s (fun s => s.intentExpires k x) h

theorem exec_rollTimerExpiry (s : State) (h : s.inReset = false) :
    exec (.rollTimerExpiry) s = .next ((s.rollTimerExpires).startIdle s) := State.run_running s (fun s => s.rollTimerExpires) h

theorem exec_rollLost (s : State) (h : s.inReset = false) :
    exec (.rollLost) s = .next ((s.rollAgesOut .circulating).startIdle s) := State.run_running s (fun s => s.rollAgesOut .circulating) h

theorem exec_abandonedRollExpiry (s : State) (h : s.inReset = false) :
    exec (.abandonedRollExpiry) s = .next ((s.rollAgesOut .abandoned).startIdle s) := State.run_running s (fun s => s.rollAgesOut .abandoned) h

theorem exec_retiredRollExpiry (s : State) (h : s.inReset = false) :
    exec (.retiredRollExpiry) s = .next (s.retiredExpires) := State.run_quiet s (fun s => s.retiredExpires) h (by unfold State.retiredExpires; split <;> rfl) (by unfold State.retiredExpires; split <;> rfl)

theorem exec_probeTimeout (s : State) (h : s.inReset = false) :
    exec (.probeTimeout) s = .next (s.probeExpires) := State.run_quiet s (fun s => s.probeExpires) h (by unfold State.probeExpires; split <;> rfl) (by unfold State.probeExpires; split <;> rfl)

theorem exec_endOfLeaving (s : State) (h : s.inReset = false) :
    exec (.endOfLeaving) s = .next ((s.testLeaving).startIdle s) := State.run_running s (fun s => s.testLeaving) h

theorem exec_slotPosting (s : State) (h : s.inReset = false) :
    exec (.slotPosting) s = .next (s.mapTable RequestTable.postNext) := State.run_quiet s (fun s => s.mapTable RequestTable.postNext) h rfl rfl

end Sys2Proof.Machine
end

