-- ==== Sys2Proof/Laws/Kept.lean ====
section
/-! SUPPORT. What a step can do to the Lease Table, the Claim Engine, the Request Table and the read position, said once: a property of
these that each of the elementary changes keeps is kept by every command and every step (`Kept.step`). -/

namespace Sys2Proof.Machine

/-- The first entry in HELD phase is the one its resource names. -/
theorem heldEntry?_of_first (l : LeaseTable) (e : HoldEntry) (he : l.holds.find? (fun e => decide (e.phase = .held)) = some e) :
    l.heldEntry? e.resource = some e := by
  obtain ⟨hp, as, bs, hl, has⟩ := List.find?_eq_some_iff_append.1 he
  refine List.find?_eq_some_iff_append.2 ⟨by simpa using hp, as, bs, hl, fun a ha => ?_⟩
  have := has a ha
  simp_all

/-- A SETTLE keeps its record lawful (R11, R12). -/
theorem lawful_settle (o : StationAddr) (b : SettleBody) (r : ResourceRecord) (hr : r.lawful) : (r.settle o b).lawful := by
  unfold ResourceRecord.settle; split
  · exact ResourceRecord.lawful_grant _ _ _ hr
  all_goals
    split
    · exact hr
    · split
      · exact ResourceRecord.lawful_dropIntent _ _ hr
      · exact hr

/-- A fold over slots keeps what each of its changes keeps. -/
theorem foldSlots {P : State → Prop} (g : State → SlotIx → State) (hg : ∀ s i, P s → P (g s i)) (is : List SlotIx) (s : State) (hs : P s) :
    P (is.foldl g s) := by
  induction is generalizing s with
  | nil => exact hs
  | cons i is ih => exact ih _ (hg s i hs)

/-- A property of a state that the elementary changes keep. -/
structure Kept (P : State → Prop) : Prop where
  /-- Changes of other parts of the state. -/
  other : ∀ s t : State, t.lease = s.lease → t.claim = s.claim → t.table = s.table → t.host.readPos = s.host.readPos → P s → P t
  /-- A completion (R106). -/
  finish : ∀ i st c (s : State), P s → P (s.finish i st c)
  /-- A slot changes, its acceptance number apart. -/
  slot : ∀ i f (s : State), (∀ sl : Slot, (f sl).accept = sl.accept) → P s → P (s.mapTable (fun t => t.modifySlot i f))
  /-- A kept completion is posted (R66). -/
  finishKept : ∀ i (s : State), P s → P (s.mapTable (fun t => t.finishKept i))
  /-- A waiting slot posts (R106). -/
  postNext : ∀ s : State, P s → P (s.mapTable RequestTable.postNext)
  /-- A notice is raised (R107). -/
  notice : ∀ n (s : State), P s → P (s.raiseNotice n)
  /-- A record is accepted (R79). -/
  occupy : ∀ i c tag r (s : State), s.table.lowestFree = some i → P s → P (s.occupy i c tag r)
  /-- A fault flag changes (R82). -/
  fault : ∀ c b (s : State), P s → P (s.mapTable (RequestTable.setFault c b))
  /-- The read position rises within the head record (R190). -/
  read : ∀ (s : State) q rest, s.table.queue = q :: rest → s.host.readPos + 1 < q.bytes.length → P s →
    P { s with host := { s.host with readPos := s.host.readPos + 1 } }
  /-- The head record leaves (R190). -/
  drop : ∀ s : State, P s → P { s with host := { s.host with readPos := 0 }, table := s.table.dropHead }
  /-- The replica changes within its law, the local hold list unchanged (R2). -/
  replica : ∀ (g : LeaseTable → LeaseTable) (s : State), (g s.lease).holds = s.lease.holds →
    ((∀ k, (s.lease.record k).lawful) → ∀ k, ((g s.lease).record k).lawful) → P s → P (s.mapLease g)
  /-- A client joins a SHARED hold (R7). -/
  join : ∀ k p e (s : State), s.lease.hold? k = some e → e.phase = .held → e.mode = .shared → P s →
    P (s.mapLease (fun l => l.modifyHold k (HoldEntry.addClient p)))
  /-- A client leaves a hold that others keep (R8). -/
  leave : ∀ k c e (s : State), s.lease.heldEntry? k = some e → (e.dropClient c).clients ≠ [] → e.hasClient c = true → P s →
    P (s.mapLease (fun l => l.modifyHold k (HoldEntry.dropClient c)))
  /-- A hold is released (R64). -/
  release : ∀ e n i c (s : State), s.lease.heldEntry? e.resource = some e → P s → P (s.releaseHold e n i c)
  /-- A released hold leaves the list (R9). -/
  remove : ∀ k (s : State), P s → P (s.mapLease (LeaseTable.removeHold k))
  /-- A claim is issued (R34, R87). -/
  issue : ∀ i a (s : State), s.arbitrate i a = .claim → P s → P (s.issueClaim i a)
  /-- Claims change, their resources apart. -/
  claims : ∀ p f (s : State), (∀ e : ClaimEntry, (f e).resource = e.resource) → P s →
    P { s with claim := s.claim.modifyWhere p f }
  /-- A claim leaves the list (R31). -/
  unclaim : ∀ p (s : State), P s → P { s with claim := s.claim.removeWhere p }
  /-- A claim leaves the list and becomes a hold (R48). -/
  grant : ∀ p e x (s : State), s.claim.claims.find? p = some e → P s →
    P { s with claim := s.claim.removeWhere p, lease := s.lease.ownGrant s.station.address e.resource e.mode x }
  /-- Claims and holds are dropped, and this station leaves every holder set (R153). -/
  halt : ∀ s : State, P s → P { s with claim := { s.claim with claims := [] }, lease := s.lease.halt s.station.address }
  /-- Everything is dropped (R155). -/
  restart : ∀ s : State, s.lease = LeaseTable.initial → s.claim.claims = [] → s.table = RequestTable.initial →
    s.host.readPos = 0 → P s

namespace Kept
variable {P : State → Prop} (h : Kept P)
include h

/-! ### Changes outside the four -/

/-- The station state changes. -/
theorem enter (st : StationState) (s : State) (hs : P s) : P (s.enter st) := h.other s _ rfl rfl rfl rfl hs
theorem mapRoll (f : RollUnit → RollUnit) (s : State) (hs : P s) : P (s.mapRoll f) := h.other s _ rfl rfl rfl rfl hs
theorem assertBypass (s : State) (hs : P s) : P s.assertBypass := h.other s _ rfl rfl rfl rfl hs
theorem releaseBypass (s : State) (hs : P s) : P s.releaseBypass := h.other s _ rfl rfl rfl rfl hs
theorem enqueue (b : Body) (o : Option SlotIx) (s : State) (hs : P s) : P (s.enqueue b o) := h.other s _ rfl rfl rfl rfl hs
theorem raiseState (c : NoticeCause) (st : StationState) (s : State) (hs : P s) : P (s.raiseState c st) := h.notice _ s hs

theorem startRollTimer (s : State) (hs : P s) : P s.startRollTimer := by
  unfold State.startRollTimer; split
  · exact h.mapRoll _ s hs
  · exact hs

theorem makeRoll (s : State) (hs : P s) : P s.makeRoll := h.other s _ rfl rfl rfl rfl hs

theorem originate (s : State) (hs : P s) : P s.originate := by
  unfold State.originate; split
  · exact h.mapRoll _ s hs
  · exact h.makeRoll s hs

theorem loseRoll (s : State) (hs : P s) : P s.loseRoll := by
  unfold State.loseRoll; dsimp only; split
  · exact h.originate _ (h.mapRoll _ s hs)
  · exact h.mapRoll _ s hs

theorem statusWrite (b : Byte) (s : State) (hs : P s) : P (s.statusWrite b) := h.other s _ rfl rfl rfl rfl hs
theorem intmaskWrite (b : Byte) (s : State) (hs : P s) : P (s.intmaskWrite b) := h.other s _ rfl rfl rfl rfl hs
theorem readProbeLo (s : State) (hs : P s) : P s.readProbeLo := h.other s _ rfl rfl rfl rfl hs
theorem reportProbe (f : OwnFrame) (s : State) (hs : P s) : P (s.reportProbe f) := h.other s _ rfl rfl rfl rfl hs
theorem countProcessing (s : State) (hs : P s) : P s.countProcessing := h.other s _ rfl rfl rfl rfl hs

theorem probeWrite (s : State) (hs : P s) : P s.probeWrite := by
  unfold State.probeWrite; split
  · exact h.other s _ rfl rfl rfl rfl hs
  · exact h.other s _ rfl rfl rfl rfl hs

theorem startFrame (s : State) (hs : P s) : P s.startFrame := by
  unfold State.startFrame; split
  · exact h.other s _ rfl rfl rfl rfl hs
  · exact hs

theorem clearRelief (s : State) (hs : P s) : P s.clearRelief := by
  unfold State.clearRelief; split
  · exact h.other s _ rfl rfl rfl rfl hs
  · exact hs

theorem removeRoll (s : State) (hs : P s) : P s.removeRoll :=
  h.clearRelief _ (h.other s _ rfl rfl rfl rfl hs)

theorem abandonRoll (s : State) (hs : P s) : P s.abandonRoll := by
  unfold State.abandonRoll; split
  · exact hs
  · dsimp only; split
    · exact h.removeRoll _ (h.mapRoll _ s hs)
    · exact h.mapRoll _ s hs

theorem countFormat (s : State) (hs : P s) : P s.countFormat := h.other s _ rfl rfl rfl rfl hs
theorem countHop (s : State) (hs : P s) : P s.countHop := h.other s _ rfl rfl rfl rfl hs
theorem setRefused (s : State) (hs : P s) : P s.setRefused := h.other s _ rfl rfl rfl rfl hs

theorem forward (f : Frame) (b : Body) (s : State) (hs : P s) : P (s.forward f b) := by
  unfold State.forward State.offerForward; split
  · exact h.other s _ rfl rfl rfl rfl hs
  · exact h.other s _ rfl rfl rfl rfl hs

theorem arrive (b : List Byte) (s : State) (hs : P s) : P (s.arrive b) := by
  unfold State.arrive; split
  · exact h.other s _ rfl rfl rfl rfl hs
  · exact h.other s _ rfl rfl rfl rfl hs

/-! ### Records keep their law (R2) -/

/-- One record changes within its law. -/
theorem modify (k : Resource) (f : ResourceRecord → ResourceRecord) (hf : ∀ r : ResourceRecord, r.lawful → (f r).lawful)
    (s : State) (hs : P s) : P (s.mapLease (fun l => l.modify k f)) := by
  refine h.replica _ s rfl ?_ hs
  intro hl j
  have hj : ((s.lease.modify k f).record j) = if k = j then f (s.lease.record k) else s.lease.record j := by
    simp only [LeaseTable.modify, LeaseTable.record, Fin.getElem_fin, Vector.getElem_set, Fin.ext_iff]
  rw [hj]
  split
  · exact hf _ (hl k)
  · exact hl j

/-- Every record changes within its law. -/
theorem mapRecords (f : ResourceRecord → ResourceRecord) (hf : ∀ r : ResourceRecord, r.lawful → (f r).lawful)
    (s : State) (hs : P s) : P (s.mapLease (fun l => l.mapRecords f)) := by
  refine h.replica _ s rfl ?_ hs
  intro hl j
  have hj : ((s.lease.mapRecords f).record j) = f (s.lease.record j) := by
    simp [LeaseTable.mapRecords, LeaseTable.record]
  rw [hj]
  exact hf _ (hl j)

/-! ### The service of waiting slots -/

/-- The ACQUIRE fields of a slot change. -/
theorem acquireFields (i : SlotIx) (f : Acquire → Acquire) (s : State) (hs : P s) : P (s.mapTable (fun t => t.modifyAcquire i f)) :=
  h.slot i _ s (fun _ => rfl) hs

theorem giveBack (i : SlotIx) (st : Status) (s : State) (hs : P s) : P (s.giveBack i st).1 := by
  unfold State.giveBack; split
  · exact hs
  · split
    · exact hs
    · dsimp only; split
      · exact h.finish _ _ _ s hs
      · rename_i e he
        split
        · rename_i hc
          split
          · have := (LeaseTable.heldEntry?_spec _ _ _ he).1
            exact h.release e _ i _ s (by rw [this]; exact he) hs
          · rename_i hn
            exact h.finish _ _ _ _ (h.leave _ _ e s he hn hc hs)
        · exact h.finish _ _ _ s hs

theorem failAcquire (i : SlotIx) (st : Status) (s : State) (hs : P s) : P (s.failAcquire i st).1 := by
  unfold State.failAcquire; split
  · exact hs
  · split
    · exact h.finish _ _ _ s hs
    · exact h.giveBack i st s hs

theorem succeedAcquire (i : SlotIx) (s : State) (hs : P s) : P (s.succeedAcquire i).1 := by
  unfold State.succeedAcquire; split
  · exact hs
  · split
    · exact hs
    · exact h.finish _ _ _ s hs

theorem beginStage2 (i : SlotIx) (s : State) (hs : P s) : P (s.beginStage2 i).1 := h.slot i _ s (fun _ => rfl) hs

/-- A join is arbitrated on a SHARED hold in HELD phase (R87, step 1). -/
theorem localJoin (i : SlotIx) (sl : Slot) (a : Acquire) (s : State) (hj : s.arbitrate i a = .join) (hs : P s) :
    P (s.localJoin i sl a) := by
  have hc : s.canJoin i a = true := by
    unfold State.arbitrate at hj; split at hj
    · assumption
    · split at hj
      · cases hj
      · split at hj
        · cases hj
        · split at hj <;> cases hj
  unfold State.canJoin at hc
  split at hc
  · cases hc
  · rename_i e he
    simp only [Bool.and_eq_true, decide_eq_true_eq] at hc
    exact h.acquireFields i _ _ (h.join _ _ e s he hc.1.1.1 hc.1.1.2 hs)

theorem examineOnce (i : SlotIx) (s : State) (hs : P s) : P (s.examineOnce i).1 := by
  unfold State.examineOnce; split
  · exact hs
  · split
    · exact hs
    · split
      · rename_i hj
        dsimp only; split
        · exact h.beginStage2 i _ (h.localJoin i _ _ s hj hs)
        · exact h.succeedAcquire i _ (h.localJoin i _ _ s hj hs)
      · split
        · exact hs
        · exact h.failAcquire i _ s hs
      · exact h.failAcquire i _ s hs
      · rename_i hc
        exact h.issue i _ s hc hs
      · exact hs

theorem examine (i : SlotIx) (s : State) (hs : P s) : P (s.examine i).1 := by
  unfold State.examine; dsimp only; split
  · exact h.examineOnce i _ (h.examineOnce i s hs)
  · exact h.examineOnce i s hs

theorem passes (n : Nat) (w : Work) (s : State) (hs : P s) : P (s.passes n w) := by
  induction n generalizing w s with
  | zero => unfold State.passes; exact hs
  | succ n ih =>
    cases w with
    | nil => exact hs
    | cons p w =>
      obtain ⟨i, k⟩ := p
      unfold State.passes; split
      · exact ih _ _ (h.examine i s hs)
      · exact ih _ _ hs

theorem reexamine (w : Work) (s : State) (hs : P s) : P (s.reexamine w) := h.passes _ _ s hs

theorem reexamined (p : State × Work) (hs : P p.1) : P (Machine.reexamined p) := h.reexamine _ _ hs

/-! ### The station's changes -/

theorem leaveStep (i : SlotIx) (s : State) (hs : P s) : P (s.leaveStep i) := by
  unfold State.leaveStep; split
  · exact h.slot i _ s (fun _ => rfl) hs
  · rename_i e he
    exact h.release e _ i _ s (heldEntry?_of_first _ _ he) hs

theorem endWaiting (s : State) (i : SlotIx) (hs : P s) : P (s.endWaiting i) := by
  unfold State.endWaiting; split
  · exact hs
  · split
    · exact h.failAcquire i _ s hs
    · exact hs

theorem enterLeaving (i : SlotIx) (s : State) (hs : P s) : P (s.enterLeaving i) :=
  h.leaveStep i _ (foldSlots _ h.endWaiting _ _ (h.mapRoll _ _ (h.enter _ s hs)))

theorem endLeaving (s : State) (hs : P s) : P s.endLeaving := by
  unfold State.endLeaving; dsimp only
  refine h.raiseState _ _ _ (h.enter _ _ (h.mapRoll _ _ (h.assertBypass _ ?_)))
  split
  · exact hs
  · exact h.finish _ _ _ s hs

theorem testLeaving (s : State) (hs : P s) : P s.testLeaving := by
  unfold State.testLeaving; split
  · exact h.endLeaving s hs
  · exact hs

theorem abortSlot (s : State) (i : SlotIx) (hs : P s) : P (s.abortSlot i) := by
  unfold State.abortSlot; split
  · exact hs
  · split
    · exact hs
    · exact h.finish _ _ _ s hs

theorem duplicateHalt (s : State) (hs : P s) : P s.duplicateHalt := by
  unfold State.duplicateHalt; dsimp only
  refine h.raiseState _ _ _ (h.enter _ _ (foldSlots _ h.abortSlot _ _ ?_))
  exact h.other { s.assertBypass with claim := { s.assertBypass.claim with claims := [] }, lease := s.assertBypass.lease.halt s.station.address } _
    rfl rfl rfl rfl (h.halt s.assertBypass (h.assertBypass s hs))

theorem restarted (s : State) : P s.restart := by
  unfold State.restart; dsimp only
  exact h.raiseState _ _ _ (h.restart _ rfl rfl rfl rfl)

theorem rollDone (s : State) (hs : P s) : P s.rollDone := by
  unfold State.rollDone
  split <;> first
    | exact hs
    | exact h.raiseState _ _ _ (h.reexamine _ _ (h.enter _ s hs))

theorem raiseRoster (q : Byte) (o n : List RosterEntry) (s : State) (hs : P s) : P (s.raiseRoster q o n) := by
  unfold State.raiseRoster; dsimp only; split
  · exact hs
  · exact h.notice _ s hs

/-- Reclaim keeps the records lawful (R23). -/
theorem reclaim (zs : List StationAddr) (s : State) (hs : P s) : P (s.mapLease (LeaseTable.reclaim zs)) :=
  h.mapRecords _ (ResourceRecord.lawful_reclaim zs) s hs

theorem completeRoll (b : RollBody) (s : State) (hs : P s) : P (s.completeRoll b) := by
  unfold State.completeRoll; dsimp only
  refine h.startRollTimer _ (h.rollDone _ (h.raiseRoster _ _ _ _ (h.mapRoll _ _ (h.enqueue _ _ _ (h.reexamine _ _ ?_)))))
  refine h.replica _ _ ?_ ?_ (h.mapRoll _ s hs)
  · simp [LeaseTable.reclaim]
  · intro _ k
    rw [LeaseTable.reclaim, LeaseTable.record_mapRecords]
    exact ResourceRecord.lawful_reclaim _ _ (LeaseTable.Lawful.rebuild _ _ _ k)

/-! ### Frames -/

theorem takeClaim (o : StationAddr) (b : ClaimBody) (s : State) (hs : P s) : P (s.takeClaim o b).1 := by
  unfold State.takeClaim; split
  · dsimp only
    have h1 : P (s.engineTakesClaim o b).1 := by
      unfold State.engineTakesClaim; split
      · exact hs
      · exact h.claims _ _ s (fun _ => rfl) hs
      · exact hs
    exact h.reexamined _ (h.modify _ _ (ResourceRecord.lawful_recordIntent _) _ h1)
  · exact hs

theorem takeSettle (o : StationAddr) (b : SettleBody) (s : State) (hs : P s) : P (s.takeSettle o b) := by
  unfold State.takeSettle; split
  · exact h.reexamine _ _ (h.modify _ _ (lawful_settle o b) s hs)
  · exact hs

theorem takeRelease (o : StationAddr) (b : ReleaseBody) (s : State) (hs : P s) : P (s.takeRelease o b) := by
  unfold State.takeRelease; split
  · exact h.reexamine _ _ (h.modify _ _ (ResourceRecord.lawful_release _ _ _) s hs)
  · exact h.modify _ _ (ResourceRecord.lawful_releaseNote _ _) s hs

theorem takeRoll (o : StationAddr) (b : RollBody) (s : State) (hs : P s) : P (s.takeRoll o b).1 := by
  unfold State.takeRoll; split
  · exact h.duplicateHalt s hs
  · split
    · exact h.countHop s hs
    · split
      · split
        · exact h.abandonRoll s hs
        · exact hs
      · exact hs

theorem rosterClears (s : State) (hs : P s) : P s.rosterClears := by
  unfold State.rosterClears; split
  · have h1 := h.mapRoll RollUnit.retire s hs
    dsimp only; split
    · exact h.startRollTimer _ h1
    · split
      · exact h.originate _ h1
      · exact h1
  · exact hs

theorem takeRoster (b : RosterBody) (s : State) (hs : P s) : P (s.takeRoster b) := by
  unfold State.takeRoster; split
  · unfold State.acceptRoster; dsimp only
    have h1 := h.reexamine ((s.mapLease (LeaseTable.reclaim (reclaimSet s.station.address s.roll.roster
      (rosterOf b.stations)))).table.offerAll (s.lease.reclaimed (reclaimSet s.station.address s.roll.roster
      (rosterOf b.stations)))) _ (h.reclaim (reclaimSet s.station.address s.roll.roster (rosterOf b.stations)) s hs)
    have h2 := h.rosterClears _ (h.raiseRoster b.sequence s.roll.roster (rosterOf b.stations) _
      (h.mapRoll (fun r => { r with roster := rosterOf b.stations }) _ h1))
    unfold State.restartTimer; split
    · exact h.startRollTimer _ h2
    · exact h2
  · exact h.rosterClears s hs

theorem takeForeign (f : Frame) (s : State) (hs : P s) : P (s.takeForeign f) := by
  unfold State.takeForeign; split
  · exact h.forward _ _ _ (h.takeClaim _ _ s hs)
  · exact h.forward _ _ _ (h.takeSettle _ _ s hs)
  · exact h.forward _ _ _ (h.takeRelease _ _ s hs)
  · rename_i b _
    have h1 := h.takeRoll f.origin b s hs
    split
    · rename_i e; rw [e] at h1; exact h1
    · rename_i e; rw [e] at h1; exact h.forward _ _ _ h1
  · exact h.forward _ _ _ (h.takeRoster _ s hs)
  · exact h.forward _ _ _ hs

/-- A report to a slot (R58). -/
theorem report (i : SlotIx) (r : Report) (s : State) (hs : P s) : P (s.report i r) := h.slot i _ s (fun _ => rfl) hs

theorem enqueueSettle (e : ClaimEntry) (o : SettleOutcome) (s : State) (hs : P s) : P (s.enqueueSettle e o) := h.enqueue _ _ s hs

theorem claimHome (b : ClaimBody) (s : State) (hs : P s) : P (s.claimHome b) := by
  unfold State.claimHome; split
  · exact hs
  · rename_i e he
    have h1 := h.unclaim (ClaimEntry.matchesReturn b) s hs
    refine h.reexamine _ _ ?_
    unfold State.settleClaim; split
    · exact h.report _ _ _ (h.enqueueSettle _ _ _ h1)
    · unfold State.grantClaim; split
      · exact h1
      · exact h.acquireFields _ _ _ (h.report _ _ _ (h.enqueueSettle _ _ _ (h.grant (ClaimEntry.matchesReturn b) e _ s he hs)))
    · exact h.report _ _ _ (h.enqueueSettle _ _ _ h1)

theorem rollHome (b : RollBody) (s : State) (hs : P s) : P (s.rollHome b) := by
  unfold State.rollHome; split
  · exact h.completeRoll b s hs
  · split
    · have h1 := h.mapRoll (fun r => { r with outstanding := none }) s hs
      unfold State.abandonedHome; dsimp only; split
      · exact h.startRollTimer _ h1
      · split
        · exact h.originate _ h1
        · exact h1
    · split
      · exact h.mapRoll _ s hs
      · exact h.duplicateHalt s hs

theorem takeOwn (f : Frame) (s : State) (hs : P s) : P (s.takeOwn f) := by
  unfold State.takeOwn; split
  · exact h.claimHome _ s hs
  · exact hs
  · exact hs
  · exact h.rollHome _ s hs
  · exact hs
  · unfold State.probeHome; split
    · exact h.other s _ rfl rfl rfl rfl hs
    · exact hs

/-- The receipt of a frame (R163). -/
theorem receive (f : Frame) (s : State) (hs : P s) : P (s.receive f) := by
  unfold State.receive; split
  · have h1 := h.arrive f.bytes s hs
    dsimp only; split
    · refine h.testLeaving _ ?_
      unfold State.judgeFrame; split
      · exact h.takeOwn f _ h1
      · split
        · exact h.countHop _ h1
        · exact h.takeForeign f _ h1
    · exact h.countFormat _ h1
  · exact hs

theorem discardFraming (c : FramingCause) (s : State) (hs : P s) : P (s.discardFraming c) := by
  unfold State.discardFraming; split
  · exact hs
  · split
    · exact h.other s _ rfl rfl rfl rfl hs
    · exact hs

/-! ### Requests -/

theorem handleAcquire (i : SlotIx) (c : Client) (g r m w : Byte) (f : Option Byte) (s : State) (hs : P s) :
    P (s.handleAcquire i c g r m w f) := by
  unfold State.handleAcquire; split
  · exact h.finish _ _ _ s hs
  · split
    · exact h.finish _ _ _ s hs
    · split
      · exact h.finish _ _ _ s hs
      · split
        · exact h.finish _ _ _ _ (h.fault _ _ s hs)
        · exact h.reexamined _ (h.examine _ _ (h.slot i _ s (fun _ => rfl) hs))

theorem handleRelease (i : SlotIx) (c : Client) (r : Byte) (n : List Byte) (s : State) (hs : P s) :
    P (s.handleRelease i c r n) := by
  unfold State.handleRelease; split
  · exact h.finish _ _ _ s hs
  · split
    · exact h.finish _ _ _ _ (h.fault _ _ s hs)
    · rename_i e he
      have hh : s.lease.heldEntry? e.resource = some e ∧ e.hasClient c = true := by
        unfold State.releasable at he; split at he
        · cases he
        · split at he
          · cases he
          · rename_i hf
            split at he
            · cases he
              exact ⟨by rw [(LeaseTable.heldEntry?_spec _ _ _ hf).1]; exact hf, by assumption⟩
            · cases he
      split
      · split
        · exact hs
        · exact h.reexamine _ _ (h.release e _ i _ s hh.1 hs)
      · rename_i hn
        exact h.finish _ _ _ _ (h.leave _ _ e s hh.1 hn hh.2 hs)

theorem handleCancel (i : SlotIx) (c : Client) (g : Byte) (s : State) (hs : P s) : P (s.handleCancel i c g) := by
  unfold State.handleCancel; split
  · exact h.finish _ _ _ s hs
  · split
    · exact h.finish _ _ _ s hs
    · split
      · split
        · exact h.reexamine _ _ (h.finish _ _ _ _ (h.failAcquire _ _ s hs))
        · exact h.finish _ _ _ s hs
      · exact h.finish _ _ _ _ (h.claims _ _ s (fun _ => rfl) hs)
      · exact h.finish _ _ _ s hs
      · exact h.finish _ _ _ s hs
      · exact h.finish _ _ _ s hs

theorem handle (i : SlotIx) (c : Client) (g : Byte) (r : Request) (s : State) (hs : P s) : P (s.handle i c g r) := by
  unfold State.handle; split
  · unfold State.handleConfigure; split
    · exact h.raiseState _ _ _ (h.releaseBypass _ (h.enter _ _ (h.finish _ _ _ _ (h.other s _ rfl rfl rfl rfl hs))))
    · exact h.finish _ _ _ s hs
  · exact h.handleAcquire _ _ _ _ _ _ _ s hs
  · exact h.handleRelease _ _ _ _ s hs
  · exact h.handleCancel _ _ _ s hs
  · unfold State.handleQuery; split <;> exact h.finish _ _ _ s hs
  · exact h.finish _ _ _ _ (h.other s _ rfl rfl rfl rfl hs)
  · exact h.finish _ _ _ _ (h.fault _ _ s hs)
  · exact h.testLeaving _ (h.enterLeaving i s hs)
  · exact h.finish _ _ _ s hs

/-- A committed record (R186). -/
theorem commit (k : RequestKind) (r : HostRecord) (s : State) (hs : P s) : P (s.commit k r) := by
  have h1 : P ({ s with host := { s.host with assembly := .empty } } : State) := h.other s _ rfl rfl rfl rfl hs
  unfold State.commit; dsimp only; split
  · exact h.setRefused _ h1
  · split
    · exact h.restarted _
    · unfold State.offerRequest; split
      · exact h.setRefused _ h1
      · rename_i i hi
        have h2 := h.occupy i r.clientNo r.tag (requestOf k r) _ hi h1
        dsimp only; split
        · exact h.handle _ _ _ _ _ h2
        · exact h.finish _ _ _ _ h2
        · exact h.finish _ _ _ _ h2

theorem commitBytes (st : List Byte) (d : Byte) (s : State) (hs : P s) : P (s.commitBytes st d) := by
  unfold State.commitBytes; split
  · exact h.other s _ rfl rfl rfl rfl hs
  · exact h.commit _ _ s hs

theorem requestByte (b : Byte) (s : State) (hs : P s) : P (s.requestByte b) := by
  unfold State.requestByte; split
  · exact h.other s _ rfl rfl rfl rfl hs
  · split
    · exact h.commitBytes _ _ s hs
    · exact h.other s _ rfl rfl rfl rfl hs
  · dsimp only; split
    · exact h.commitBytes _ _ s hs
    · exact h.other s _ rfl rfl rfl rfl hs

/-! ### Completion reads -/

theorem postWaiting (n : Nat) (s : State) (hs : P s) : P (s.mapTable (RequestTable.postWaiting n)) := by
  induction n generalizing s with
  | zero => exact hs
  | succ n ih => exact ih _ (h.postNext s hs)

theorem readCompletion (first : Bool) (s : State) (hs : P s) : P (s.readCompletion first) := by
  unfold State.readCompletion; split
  · exact h.other s _ rfl rfl rfl rfl hs
  · rename_i r rest hq
    have h1 : P (s.driveData s.completionByte) := h.other s _ rfl rfl rfl rfl hs
    unfold State.advanceRead; split
    · rename_i hl
      exact h.read _ r rest hq hl h1
    · have h2 := h.drop _ h1
      cases first
      · exact h.postWaiting 8 _ h2
      · exact h2

/-! ### The transmitter -/

theorem chooses (s : State) (hs : P s) : P s.choose := h.other s _ rfl rfl rfl rfl hs

theorem transmitChoice (s : State) (hs : P s) : P s.transmitChoice := by
  unfold State.transmitChoice
  split
  · exact hs
  · exact h.chooses s hs
  · exact h.chooses s hs
  · exact hs
  · exact h.chooses _ (h.other s _ rfl rfl rfl rfl hs)
  · exact h.chooses s hs

theorem ownSent (k : Byte) (g : OwnFrame → State → State) (hg : ∀ f s, P s → P (g f s)) (s : State) (hs : P s) :
    P (s.ownSent k g) := by
  unfold State.ownSent; split
  · split
    · exact h.testLeaving _ (hg _ _ (h.clearRelief _ (h.other s _ rfl rfl rfl rfl hs)))
    · exact hs
  · exact hs

theorem reportClaim (f : OwnFrame) (s : State) (hs : P s) : P (s.reportClaim f) := by
  unfold State.reportClaim; split
  · exact h.claims _ _ s (fun _ => rfl) hs
  · exact hs

theorem settled (i : SlotIx) (s : State) (hs : P s) : P (s.settled i).1 := by
  have hw : P (s.waitAgain i).1 := h.slot i _ s (fun _ => rfl) hs
  have hr : P (State.retry i s).1 := by
    unfold State.retry; split
    · exact h.failAcquire _ _ s hs
    · exact hw
  have hc : P (s.chain i).1 := by
    unfold State.chain; split
    · exact h.failAcquire _ _ _ (h.acquireFields i _ s hs)
    · exact h.beginStage2 i s hs
  unfold State.settled; split
  · exact hs
  · split
    · split
      · exact hs
      · unfold State.settleRow; split
        · split
          · exact h.succeedAcquire i s hs
          · split
            · exact hc
            · exact h.succeedAcquire i s hs
        · split
          · exact hr
          · exact h.failAcquire _ _ s hs
        · split
          · exact h.failAcquire _ _ s hs
          · exact hr
        · exact h.failAcquire _ _ s hs
        · exact h.failAcquire _ _ s hs
    · exact hs

theorem reportSettle (f : OwnFrame) (s : State) (hs : P s) : P (s.reportSettle f) := by
  unfold State.reportSettle; split
  · exact hs
  · exact h.reexamined _ (h.settled _ s hs)

theorem reportRelease (f : OwnFrame) (s : State) (hs : P s) : P (s.reportRelease f) := by
  unfold State.reportRelease; split
  · rename_i b _
    have h2 := h.reexamine ((s.mapLease (LeaseTable.removeHold b.resource)).table.offer b.resource) _ (h.remove b.resource s hs)
    dsimp only; split
    · exact h2
    · unfold State.released; split
      · exact h2
      · split
        · exact h.leaveStep _ _ h2
        · exact h.finishKept _ _ h2
  · exact hs

theorem makeHeld (s : State) (hs : P s) : P s.makeHeld := by
  unfold State.makeHeld; split
  · split
    · exact h.makeRoll s hs
    · exact h.mapRoll _ s hs
  · exact hs

/-! ### Link status and timers -/

theorem originateIfNone (s : State) (hs : P s) : P s.originateIfNone := by
  unfold State.originateIfNone; split
  · exact h.originate s hs
  · exact hs

theorem reportUp (s : State) (hs : P s) : P s.reportUp := by
  unfold State.reportUp; split
  · have h1 : P s.linkComesUp := h.other s _ rfl rfl rfl rfl hs
    unfold State.stationLinkUp
    split <;> first
      | exact h1
      | exact h.raiseState _ _ _ (h.originateIfNone _ h1)
      | exact h.raiseState _ _ _ (h.originateIfNone _ (h.enter _ _ h1))
      | exact h.raiseState _ _ _ h1
  · exact hs

theorem reportDown (s : State) (hs : P s) : P s.reportDown := by
  unfold State.reportDown; split
  · have h1 : P s.linkGoesDown := by
      unfold State.linkGoesDown; dsimp only; split <;> exact h.other s _ rfl rfl rfl rfl hs
    unfold State.stationLinkDown
    split <;> first
      | exact h1
      | exact h.raiseState _ _ _ h1
      | exact h.raiseState _ _ _ (h.enter _ _ h1)
      | exact h.raiseState _ _ _ (h.mapRoll _ _ (h.enter _ _ h1))
  · exact hs

theorem circuitExpires (q : Byte) (s : State) (hs : P s) : P (s.circuitExpires q) := by
  unfold State.circuitExpires; split
  · exact hs
  · exact h.testLeaving _ (h.reexamine _ _ (h.report _ _ _ (h.enqueueSettle _ _ _ (h.unclaim _ s hs))))

theorem intentExpires (k : Resource) (x : StationAddr) (s : State) (hs : P s) : P (s.intentExpires k x) := by
  unfold State.intentExpires; split
  · exact h.reexamine _ _ (h.modify _ _ (ResourceRecord.lawful_dropIntent x) s hs)
  · exact hs

/-! ### Commands -/

/-- Every block at its initial values. -/
theorem initialValues (s : State) (h1 : s.lease = LeaseTable.initial) (h2 : s.claim = ClaimEngine.initial)
    (h3 : s.table = RequestTable.initial) (h4 : s.host = HostPort.initial) : P s :=
  h.restart s h1 (by rw [h2]; rfl) h3 (by rw [h4]; rfl)

theorem run (f : State → State) (hf : ∀ s, P s → P (f s)) (s t : State) (hs : P s) (ht : s.run f = .next t) : P t := by
  simp only [State.run, Host.Outcome.next.injEq] at ht
  subst ht
  split
  · exact hs
  · exact h.other (f s) _ rfl rfl rfl rfl (hf s hs)

theorem runWrite (y : Strobe) (f : State → State) (hf : ∀ s, P s → P (f s)) (s t : State) (hs : P s) (ht : s.runWrite y f = .next t) :
    P t := by
  unfold State.runWrite at ht; split at ht
  · exact h.run f hf s t hs ht
  · cases ht; exact hs

theorem runRead (y : Strobe) (f : State → State) (hf : ∀ s, P s → P (f s)) (s t : State) (hs : P s) (ht : s.runRead y f = .next t) :
    P t := by
  simp only [State.runRead, Host.Outcome.next.injEq] at ht
  subst ht
  split
  · split
    · exact h.other s _ rfl rfl rfl rfl hs
    · exact hf s hs
  · exact hs

/-- A command that runs a change keeps what the change keeps, outside reset and in it. -/
theorem execRun (f : State → State) (hf : ∀ s, P s → P (f s)) (c : Instr) (s t : State) (hs : P s)
    (he : Machine.exec c s = s.run f) (ht : Machine.exec c s = .next t) : P t := h.run f hf s t hs (he.symm.trans ht)

theorem execRunWrite (y : Strobe) (f : State → State) (hf : ∀ s, P s → P (f s)) (c : Instr) (s t : State) (hs : P s)
    (he : Machine.exec c s = s.runWrite y f) (ht : Machine.exec c s = .next t) : P t := h.runWrite y f hf s t hs (he.symm.trans ht)

theorem execRunRead (y : Strobe) (f : State → State) (hf : ∀ s, P s → P (f s)) (c : Instr) (s t : State) (hs : P s)
    (he : Machine.exec c s = s.runRead y f) (ht : Machine.exec c s = .next t) : P t := h.runRead y f hf s t hs (he.symm.trans ht)

theorem reportRoll (f : OwnFrame) (s : State) (hs : P s) : P (s.reportRoll f) := h.mapRoll _ s hs
theorem reportRoster (f : OwnFrame) (s : State) (hs : P s) : P (s.reportRoster f) := h.makeHeld s hs

theorem receiveBad (l : List Byte) (s : State) (hs : P s) : P (s.receiveBad l) := by
  unfold State.receiveBad; split
  · exact h.countFormat _ (h.arrive l s hs)
  · exact hs

theorem rollTimerExpires (s : State) (hs : P s) : P s.rollTimerExpires := by
  unfold State.rollTimerExpires; split
  · exact h.originate s hs
  · exact hs

theorem rollAgesOut (p : RollPhase) (s : State) (hs : P s) : P (s.rollAgesOut p) := by
  unfold State.rollAgesOut; split
  · exact h.loseRoll s hs
  · exact hs

theorem retiredExpires (s : State) (hs : P s) : P s.retiredExpires := by
  unfold State.retiredExpires; split
  · exact h.mapRoll _ s hs
  · exact hs

theorem probeExpires (s : State) (hs : P s) : P s.probeExpires := by
  unfold State.probeExpires; split
  · exact h.other s _ rfl rfl rfl rfl hs
  · exact hs

theorem holdReset (a b : Bool) (n : Nat) (s : State) : P (s.holdReset a b n) := h.initialValues _ rfl rfl rfl rfl
theorem releaseReset (a : StationAddr) (s : State) : P (s.releaseReset a) := h.initialValues _ rfl rfl rfl rfl

theorem powerOnEnds (a : StationAddr) (s : State) (hs : P s) : P (s.powerOnEnds a) := by
  unfold State.powerOnEnds; split
  · split
    · exact h.other s _ rfl rfl rfl rfl hs
    · exact h.releaseReset a s
  · exact hs

theorem pinReleased (a : StationAddr) (s : State) (hs : P s) : P (s.pinReleased a) := by
  unfold State.pinReleased; split
  · split
    · exact h.other s _ rfl rfl rfl rfl hs
    · exact h.releaseReset a s
  · exact hs

theorem powerFail (s t : State) (ht : Machine.exec .powerFail s = .next t) : P t := by
  rw [← Host.Outcome.next.inj ht]; exact h.holdReset _ _ _ s

theorem resetAsserted (n : Nat) (s t : State) (hs : P s) (ht : Machine.exec (.resetAsserted n) s = .next t) : P t := by
  have : t = if Config.resetNs ≤ n then s.holdReset s.supplyLow true s.porTimer else s := (Host.Outcome.next.inj ht).symm
  rw [this]; split
  · exact h.holdReset _ _ _ s
  · exact hs

theorem resetReleased (c : ReleaseCause) (a : StationAddr) (s t : State) (hs : P s)
    (ht : Machine.exec (.resetReleased c a) s = .next t) : P t := by
  cases c
  · rw [← Host.Outcome.next.inj ht]; exact h.powerOnEnds a s hs
  · rw [← Host.Outcome.next.inj ht]; exact h.pinReleased a s hs

/-- Every command keeps the property. -/
theorem exec (c : Instr) (s t : State) (hs : P s) (ht : Machine.exec c s = .next t) : P t := by
  cases c with
  | powerFail => exact h.powerFail s t ht
  | resetAsserted n => exact h.resetAsserted n s t hs ht
  | resetReleased c a => exact h.resetReleased c a s t hs ht
  | requestAssemblyByte b y => exact h.execRunWrite y (fun s => s.requestByte b) (h.requestByte b) _ s t hs rfl ht
  | configure r => exact h.execRun (fun s => s.commit .configure r) (h.commit _ r) _ s t hs rfl ht
  | acquire r => exact h.execRun (fun s => s.commit .acquire r) (h.commit _ r) _ s t hs rfl ht
  | release r => exact h.execRun (fun s => s.commit .release r) (h.commit _ r) _ s t hs rfl ht
  | cancel r => exact h.execRun (fun s => s.commit .cancel r) (h.commit _ r) _ s t hs rfl ht
  | query r => exact h.execRun (fun s => s.commit .query r) (h.commit _ r) _ s t hs rfl ht
  | stats r => exact h.execRun (fun s => s.commit .stats r) (h.commit _ r) _ s t hs rfl ht
  | clearFault r => exact h.execRun (fun s => s.commit .clearFault r) (h.commit _ r) _ s t hs rfl ht
  | leave r => exact h.execRun (fun s => s.commit .leave r) (h.commit _ r) _ s t hs rfl ht
  | restart r => exact h.execRun (fun s => s.commit .restart r) (h.commit _ r) _ s t hs rfl ht
  | completionRead n y => exact h.execRunRead y (fun s => s.readCompletion n) (h.readCompletion n) _ s t hs rfl ht
  | abandon b y => exact h.execRunWrite y (fun s => s.statusWrite (b ||| 0x80)) (h.statusWrite _) _ s t hs rfl ht
  | clearRefused b y => exact h.execRunWrite y (fun s => s.statusWrite (b ||| 0x01)) (h.statusWrite _) _ s t hs rfl ht
  | clearNoticeLost b y => exact h.execRunWrite y (fun s => s.statusWrite (b ||| 0x02)) (h.statusWrite _) _ s t hs rfl ht
  | clearProbeDone b y => exact h.execRunWrite y (fun s => s.statusWrite (b ||| 0x04)) (h.statusWrite _) _ s t hs rfl ht
  | clearProbeBusy b y => exact h.execRunWrite y (fun s => s.statusWrite (b ||| 0x08)) (h.statusWrite _) _ s t hs rfl ht
  | intmaskWrite b y => exact h.execRunWrite y (fun s => s.intmaskWrite b) (h.intmaskWrite b) _ s t hs rfl ht
  | probeTimeLoRead y => exact h.execRunRead y (State.readProbeLo) (h.readProbeLo) _ s t hs rfl ht
  | probe b y => exact h.execRunWrite y (State.probeWrite) (h.probeWrite) _ s t hs rfl ht
  | ignoredWrite a b y => exact h.execRunWrite y (id) (fun _ hs => hs) _ s t hs rfl ht
  | framingDiscard c => exact h.execRun (fun s => s.discardFraming c) (h.discardFraming c) _ s t hs rfl ht
  | formatDiscard l => exact h.execRun (fun s => s.receiveBad l) (h.receiveBad l) _ s t hs rfl ht
  | claimReceipt o p b =>
    exact h.execRun (fun s => s.receive { origin := o, hop := p, body := .claim b }) (h.receive _) _ s t hs rfl ht
  | settleReceipt o p b =>
    exact h.execRun (fun s => s.receive { origin := o, hop := p, body := .settle b }) (h.receive _) _ s t hs rfl ht
  | releaseReceipt o p b =>
    exact h.execRun (fun s => s.receive { origin := o, hop := p, body := .release b }) (h.receive _) _ s t hs rfl ht
  | rollReceipt o p b =>
    exact h.execRun (fun s => s.receive { origin := o, hop := p, body := .roll b }) (h.receive _) _ s t hs rfl ht
  | rosterReceipt o p b =>
    exact h.execRun (fun s => s.receive { origin := o, hop := p, body := .roster b }) (h.receive _) _ s t hs rfl ht
  | probeForward o p b =>
    exact h.execRun (fun s => s.receive { origin := o, hop := p, body := .probe b }) (h.receive _) _ s t hs rfl ht
  | ownClaimReturn p b =>
    exact h.execRun (fun s => s.receive { origin := s.station.address, hop := p, body := .claim b }) (fun s hs => h.receive _ s hs) _ s t hs rfl ht
  | ownRollReturn p b =>
    exact h.execRun (fun s => s.receive { origin := s.station.address, hop := p, body := .roll b }) (fun s hs => h.receive _ s hs) _ s t hs rfl ht
  | ownProbeReturn p b =>
    exact h.execRun (fun s => s.receive { origin := s.station.address, hop := p, body := .probe b }) (fun s hs => h.receive _ s hs) _ s t hs rfl ht
  | ownFrameStripped p b =>
    exact h.execRun (fun s => s.receive { origin := s.station.address, hop := p, body := b.toBody }) (fun s hs => h.receive _ s hs) _ s t hs rfl ht
  | transmitChoice => exact h.execRun (State.transmitChoice) (h.transmitChoice) _ s t hs rfl ht
  | claimTransmitted => exact h.execRun (State.ownSent 0x51 State.reportClaim) (h.ownSent _ _ h.reportClaim) _ s t hs rfl ht
  | settleTransmitted => exact h.execRun (State.ownSent 0x52 State.reportSettle) (h.ownSent _ _ h.reportSettle) _ s t hs rfl ht
  | releaseTransmitted => exact h.execRun (State.ownSent 0x53 State.reportRelease) (h.ownSent _ _ h.reportRelease) _ s t hs rfl ht
  | rollTransmitted => exact h.execRun (State.ownSent 0x54 State.reportRoll) (h.ownSent _ _ h.reportRoll) _ s t hs rfl ht
  | rosterTransmitted => exact h.execRun (State.ownSent 0x55 State.reportRoster) (h.ownSent _ _ h.reportRoster) _ s t hs rfl ht
  | heldOrigination => exact h.execRun (State.makeHeld) (h.makeHeld) _ s t hs rfl ht
  | probeTransmitted => exact h.execRun (State.ownSent 0x56 State.reportProbe) (h.ownSent _ _ h.reportProbe) _ s t hs rfl ht
  | linkUp => exact h.execRun (State.reportUp) (h.reportUp) _ s t hs rfl ht
  | linkDown => exact h.execRun (State.reportDown) (h.reportDown) _ s t hs rfl ht
  | circuitTimeout q => exact h.execRun (fun s => s.circuitExpires q) (h.circuitExpires q) _ s t hs rfl ht
  | intentExpiry k x => exact h.execRun (fun s => s.intentExpires k x) (h.intentExpires k x) _ s t hs rfl ht
  | rollTimerExpiry => exact h.execRun (State.rollTimerExpires) (h.rollTimerExpires) _ s t hs rfl ht
  | rollLost => exact h.execRun (State.rollAgesOut .circulating) (h.rollAgesOut _) _ s t hs rfl ht
  | abandonedRollExpiry => exact h.execRun (State.rollAgesOut .abandoned) (h.rollAgesOut _) _ s t hs rfl ht
  | retiredRollExpiry => exact h.execRun (State.retiredExpires) (h.retiredExpires) _ s t hs rfl ht
  | probeTimeout => exact h.execRun (State.probeExpires) (h.probeExpires) _ s t hs rfl ht
  | endOfLeaving => exact h.execRun (State.testLeaving) (h.testLeaving) _ s t hs rfl ht
  | slotPosting => exact h.execRun (fun s => s.mapTable RequestTable.postNext) (h.postNext) _ s t hs rfl ht
  | frameStart => exact h.execRun (State.startFrame) (h.startFrame) _ s t hs rfl ht

/-! ### Time -/

theorem tickMicro (s : State) (hs : P s) : P s.tickMicro := by
  unfold State.tickMicro; split <;> exact h.other s _ rfl rfl rfl rfl hs

theorem tickCharacter (s : State) (hs : P s) : P s.tickCharacter := by
  have h1 := h.mapRecords _ ResourceRecord.lawful_tick s hs
  have h2 := h.claims (fun _ => true) ClaimEntry.tick _ (fun e => by unfold ClaimEntry.tick; split <;> rfl) h1
  refine h.other _ s.tickCharacter ?_ ?_ ?_ ?_ h2
  · rfl
  · simp [State.tickCharacter, ClaimEngine.modifyWhere, State.mapLease]
  · simp only [State.tickCharacter, State.tickMicro]; split <;> rfl
  · simp only [State.tickCharacter, State.tickMicro]; split <;> rfl

theorem transmitChar (s : State) (hs : P s) : P s.transmitChar := by
  unfold State.transmitChar
  split
  · exact h.other s _ rfl rfl rfl rfl hs
  · exact h.other s _ rfl rfl rfl rfl hs
  · exact h.other s _ rfl rfl rfl rfl hs
  · split <;> exact h.other s _ rfl rfl rfl rfl hs
  · split
    · exact h.other s _ rfl rfl rfl rfl hs
    · dsimp only; split <;> exact h.other s _ rfl rfl rfl rfl hs
  · exact h.other s _ rfl rfl rfl rfl hs

theorem frameCharacter (c : LinkChar) (s : State) (hs : P s) : P (s.frameCharacter c) := by
  unfold State.frameCharacter
  split
  · unfold State.startFrame; split
    · exact h.other s _ rfl rfl rfl rfl hs
    · exact hs
  · exact hs
  · unfold State.frameByte; split
    · exact h.other s _ rfl rfl rfl rfl hs
    · exact h.discardFraming _ s hs
  · exact h.other s _ rfl rfl rfl rfl hs
  · exact h.discardFraming _ s hs
  · exact h.discardFraming _ s hs
  · exact h.discardFraming _ s hs
  · exact hs

theorem characterTime (s : State) (hs : P s) : P s.characterTime := by
  unfold State.characterTime
  have h1 := h.transmitChar _ (h.countProcessing _ (h.tickCharacter s hs))
  generalize s.tickCharacter.countProcessing.transmitChar = u at h1 ⊢
  unfold State.receiveChar; dsimp only; split
  · split
    · exact h.frameCharacter _ _ (h.other u _ rfl rfl rfl rfl h1)
    · exact h.other u _ rfl rfl rfl rfl h1
  · exact h.other u _ rfl rfl rfl rfl h1

/-- Every step keeps the property. -/
theorem step (s t : State) (hs : P s) (ht : Machine.step s = .next t) : P t := by
  unfold Machine.step at ht; split at ht
  · cases ht
    unfold State.idleStep; split
    · unfold State.resetStep; split
      · split <;> exact h.other s _ rfl rfl rfl rfl hs
      · exact hs
    · split
      · exact h.other s _ rfl rfl rfl rfl hs
      · exact h.characterTime s hs
  · rename_i c rest _
    exact h.exec c _ t (h.other s { s with pending := rest } rfl rfl rfl rfl hs) ht

end Kept
end Sys2Proof.Machine
end

