-- ==== Sys2Proof/Laws/Time.lean ====
section
/-! SUPPORT. What one character time can change, said once for the receiver and once for the transmitter. -/

namespace Sys2Proof.Machine

/-- A framing discard changes the receiver and the format counter. -/
theorem State.discardFraming_changes (c : FramingCause) (s : State) :
    ∃ x n, s.discardFraming c = { s with ring := { s.ring with receiver := x, formatCount := n } } := by
  unfold State.discardFraming; split
  · exact ⟨_, _, rfl⟩
  · split <;> exact ⟨_, _, rfl⟩

/-- A character taken by R159 changes the receiver, the format counter and the frames in processing time. -/
theorem State.frameCharacter_changes (c : LinkChar) (s : State) :
    ∃ x n p, s.frameCharacter c = { s with ring := { s.ring with receiver := x, formatCount := n, processing := p } } := by
  have discard (c : FramingCause) : ∃ x n p,
      s.discardFraming c = { s with ring := { s.ring with receiver := x, formatCount := n, processing := p } } := by
    obtain ⟨x, n, h⟩ := s.discardFraming_changes c
    exact ⟨x, n, s.ring.processing, h⟩
  unfold State.frameCharacter; split
  · unfold State.startFrame; split <;> exact ⟨_, _, _, rfl⟩
  · exact ⟨_, _, _, rfl⟩
  · unfold State.frameByte; split
    · exact ⟨_, _, _, rfl⟩
    · exact discard _
  · exact ⟨_, _, _, rfl⟩
  · exact discard _
  · exact discard _
  · exact discard _
  · exact ⟨_, _, _, rfl⟩

/-- The receiver's character changes the receive line and the receiving half of the Ring Port. -/
theorem State.receiveChar_changes (s : State) : ∃ x n p l t, s.receiveChar = { s with
    rxLine := s.rxLine.tail
    ring := { s.ring with receiver := x, formatCount := n, processing := p, lossTimer := l, settleTimer := t } } := by
  unfold State.receiveChar; dsimp only; split
  · have hr : ∃ l t, s.ring.timeLink s.nextChar = { s.ring with lossTimer := l, settleTimer := t } := by
      unfold RingPort.timeLink; split <;> exact ⟨_, _, rfl⟩
    obtain ⟨l, t, hr⟩ := hr
    simp only [hr]
    split
    · obtain ⟨x, n, p, h⟩ := State.frameCharacter_changes s.nextChar
        { s with rxLine := s.rxLine.tail, ring := { s.ring with lossTimer := l, settleTimer := t } }
      exact ⟨x, n, p, l, t, h⟩
    · exact ⟨_, _, _, l, t, rfl⟩
  · exact ⟨_, _, _, _, _, rfl⟩

/-- The transmitter's character changes the transmitting half of the Ring Port. -/
theorem State.transmitChar_changes (s : State) :
    ∃ x c f, s.transmitChar = { s with ring := { s.ring with transmitter := x, txLine := c, forwarding := f } } := by
  unfold State.transmitChar; split
  · exact ⟨_, _, _, rfl⟩
  · exact ⟨_, _, _, rfl⟩
  · exact ⟨_, _, _, rfl⟩
  · split <;> exact ⟨_, _, _, rfl⟩
  · split
    · exact ⟨_, _, _, rfl⟩
    · dsimp only; split <;> exact ⟨_, _, _, rfl⟩
  · exact ⟨_, _, _, rfl⟩

/-- The microsecond counter's part of a character time changes the station's counters and the probe timer. -/
theorem State.tickMicro_changes (s : State) : ∃ x p, s.tickMicro = { s with station := x, probe := p } := by
  unfold State.tickMicro; split <;> exact ⟨_, _, rfl⟩

/-- The timers' part of a character time and the count of processing times leave the transmitter what it reads. -/
theorem State.transmitter_ticked (s : State) :
    let v := s.tickCharacter.countProcessing
    v.ring = { s.ring with processing := s.ring.processing.map (fun a => { a with left := a.left - 1 }) } ∧
      v.outbound = s.outbound ∧ v.rxLine = s.rxLine ∧ v.station.state = s.station.state := by
  have h : s.tickMicro.ring = s.ring ∧ s.tickMicro.outbound = s.outbound ∧ s.tickMicro.rxLine = s.rxLine ∧
      s.tickMicro.station.state = s.station.state := by
    unfold State.tickMicro; split <;> exact ⟨rfl, rfl, rfl, rfl⟩
  refine ⟨?_, h.2⟩
  unfold State.countProcessing State.tickCharacter
  rw [h.1]

/-- What a character time does outside the Ring Port. -/
theorem State.characterTime_changes (s : State) : ∃ r, s.characterTime = { s.tickMicro with
    lease := s.lease.mapRecords ResourceRecord.tick
    claim := { s.claim with claims := s.claim.claims.map ClaimEntry.tick }
    roll := s.roll.tick
    rxLine := s.tickMicro.rxLine.tail
    ring := r } := by
  obtain ⟨a, b, c, h⟩ := State.transmitChar_changes s.tickCharacter.countProcessing
  obtain ⟨d, e, f, g, i, k⟩ := State.receiveChar_changes s.tickCharacter.countProcessing.transmitChar
  refine ⟨s.characterTime.ring, ?_⟩
  unfold State.characterTime
  rw [k, h]; rfl

end Sys2Proof.Machine
end

