-- ==== Sys2Proof/Tests/Slice0.lean ====
section
/-! SUPPORT. Tests: ill-formed terms, the check values and examples of the spec, and for each obligation with hypotheses states and
operands that meet them, at the boundaries of their clauses. -/

namespace Sys2Proof.Tests
open Sys2Proof.Machine Sys2Proof.Statement

/- One theorem after another: a thread for each would need more memory than the checks allow. -/
set_option Elab.async false

/- The witnesses' conjunctions are long, and each is decided whole. -/
set_option synthInstance.maxSize 4000
set_option synthInstance.maxHeartbeats 400000

/-! ### Small states -/

/-- The state a command leaves. -/
def after (c : Instr) (s : State) : State :=
  match exec c s with
  | .next t => t
  | .fault _ => s
  | .refused _ => s

/-- The commands one after another. -/
def afterAll (cs : List Instr) (s : State) : State := cs.foldl (fun s c => after c s) s

def cfg : Configuration := { interval := 10, units := 20, retry := 2 }

/-- Station 3 in a state, configured, with its link UP. -/
def at3 (st : StationState) : State :=
  { State.initial 3 with
    station := { state := st, address := 3, config := some cfg, micros := 7, subMicro := 0 }
    ring := { RingPort.initial with linkUp := true, lossTimer := some 0, transmitter := .idle } }

/-- The same with its link DOWN. -/
def down3 (st : StationState) : State := { at3 st with ring := { (at3 st).ring with linkUp := false, lossTimer := none } }

/-- A request record of a client and tag. -/
def hr (client tag : Byte) (body : List Byte) : HostRecord :=
  { declared := BitVec.ofNat 8 (4 + body.length), client := client, tag := tag, body := body }

/-- ACQUIRE fields in stage 1. -/
def acq (k : Resource) (m : Mode) (wait : Bool) (f : Option Resource) (st : Stage) (r : Option Report) : Acquire :=
  { first := k, mode := m, wait := wait, followOn := f, stage := st, patience := 0, lost := 0, report := r, groups := [] }

/-- An occupied slot of client 0 with tag 9. -/
def slotOf (r : Request) (p : SlotPhase) (n : Nat) (a : Option Acquire) (c : Option Completion) : Slot :=
  { client := 0, tag := 9, request := r, phase := p, accept := n, acquire := a, completion := c }

def put (i : SlotIx) (sl : Slot) (s : State) : State := s.mapTable (RequestTable.setSlot i (some sl))

/-- A hold of client 0. -/
def holdOf (k : Resource) (m : Mode) (p : HoldPhase) (cs : List (Client × Byte)) : HoldEntry :=
  { resource := k, mode := m, clients := cs, phase := p }

def holding (es : List HoldEntry) (s : State) : State := { s with lease := { s.lease with holds := es } }

/-- A claim of slot 0. -/
def claimOf (k : Resource) (m : Mode) (q : Byte) (p : ClaimPhase) : ClaimEntry :=
  { resource := k, mode := m, sequence := q, patience := 1, yielding := false, cancel := false, slot := 0, phase := p, timer := 2000 }

def claiming (es : List ClaimEntry) (s : State) : State := { s with claim := { s.claim with claims := es } }

/-- One whole frame in its processing time. -/
def brought (bytes : List Byte) (s : State) : State :=
  { s with ring := { s.ring with processing := [{ bytes := bytes, left := 0 }] } }

/-- A completion record of 6 bytes. -/
def done : Completion := { client := 0, tag := 9, kind := .release, status := .ok, stage := .first, content := .none }

/-- A queue of n completion records and m notices. -/
def queued (n m : Nat) (s : State) : State :=
  let records := List.replicate n (QueueRecord.completion done)
  let notices := List.replicate m (QueueRecord.notice (.state .restart .active .joining))
  { s with table := { s.table with queue := records ++ notices } }

/-- Eight occupied slots. -/
def fullTable (s : State) : State :=
  (List.finRange 8).foldl (fun s i => put i (slotOf .stats .posting (i.val + 1) none (some done)) s) s

/-- The transmitter sends the head of the Outbound Queue. -/
def sending (b : Body) (o : Option SlotIx) (s : State) : State :=
  { s with outbound := [{ frame := { origin := 3, hop := 0, body := b }, owner := o }],
           ring := { s.ring with transmitter := .sendingOwn 9 } }

/-- A frame of station 5 with hop count 14. -/
def from5 (b : Body) : Frame := { origin := 5, hop := 14, body := b }

/-- A frame of station 1 with hop count 0. -/
def from1 (b : Body) : Frame := { origin := 1, hop := 0, body := b }

def claim7 (m : Mode) (p : Byte) : ClaimBody := { resource := 7, mode := m, sequence := 4, patience := p, objection := none }
def settle7 (o : SettleOutcome) : SettleBody := { resource := 7, mode := .shared, sequence := 4, outcome := o }
def intent5 (q : Byte) (age : Nat) : Intent := { originator := 5, mode := .shared, sequence := q, age := age }

/-- A record of resource 7. -/
def record7 (r : ResourceRecord) (s : State) : State := s.mapLease (fun l => l.modify 7 (fun _ => r))

def rolling (p : RollPhase) (sent : Bool) (age : Nat) (s : State) : State :=
  { s with roll := { s.roll with outstanding := some { sequence := 2, stamp := 6, phase := p, sent := sent, age := age } } }

def roll26 (es : List RollEntry) : RollBody := { sequence := 2, stamp := 6, entries := es }
def entryOf (a : Byte) : RollEntry := { addr := a, holds := [], pendings := [] }

/-! ### Ill-formed terms (WellFormed) -/

theorem test_wf_note_of_33_bytes : ReleaseBody.wf { resource := 0, mode := .exclusive, note := List.replicate 33 0 } = false := by decide
theorem test_wf_note_of_32_bytes : ReleaseBody.wf { resource := 0, mode := .exclusive, note := List.replicate 32 0 } = true := by decide
theorem test_wf_entry_of_5_pendings : RollEntry.wf { addr := 0, holds := [], pendings := List.replicate 5 (0, 0) } = false := by decide
theorem test_wf_entry_of_17_items :
    RollEntry.wf { addr := 0, holds := List.replicate 13 0, pendings := List.replicate 4 (0, 0) } = false := by decide
theorem test_wf_roll_without_entries : RollBody.wf (roll26 []) = false := by decide
theorem test_wf_roll_of_17_entries : RollBody.wf (roll26 (List.replicate 17 (entryOf 0))) = false := by decide
theorem test_wf_roll_with_bad_entry :
    RollBody.wf (roll26 [{ addr := 0, holds := List.replicate 17 0, pendings := [] }]) = false := by decide
theorem test_wf_roster_of_none : RosterBody.wf { sequence := 0, stations := [] } = false := by decide
theorem test_wf_roster_of_17 : RosterBody.wf { sequence := 0, stations := List.replicate 17 0 } = false := by decide
theorem test_wf_frame_of_bad_note :
    Frame.wf (from5 (.release { resource := 0, mode := .shared, note := List.replicate 33 0 })) = false := by decide
theorem test_wf_record_length : HostRecord.wf { declared := 9, client := 0, tag := 0, body := [1] } = false := by decide
theorem test_wf_short_reset : Instr.wf (.resetAsserted 999) = false ∧ Instr.wf (.resetAsserted 1000) = true := by decide
theorem test_wf_long_bytes : Instr.wf (.formatDiscard (List.replicate 362 0)) = false := by decide +kernel
theorem test_wf_command_operands :
    Instr.wf (.query { declared := 9, client := 0, tag := 0, body := [] }) = false ∧
    Instr.wf (.rosterReceipt 5 0 { sequence := 0, stations := [] }) = false ∧
    Instr.wf (.ownRollReturn 0 (roll26 [])) = false ∧
    Instr.wf (.ownFrameStripped 0 (.release { resource := 0, mode := .shared, note := List.replicate 33 0 })) = false := by decide

theorem test_wf_short_strobe :
    Instr.wf (.requestAssemblyByte 7 { lowNs := 59, both := false }) = false ∧ Instr.wf (.requestAssemblyByte 7) = true ∧
    Instr.wf (.completionRead false { lowNs := 59, both := false }) = false ∧ Instr.wf (.probe 0 { lowNs := 59, both := false }) = false := by
  decide

/-! ### Layouts: the spec's bytes -/

/-- R205's check value. -/
theorem test_crc_check_value : crc16 [0x31, 0x32, 0x33, 0x34, 0x35, 0x36, 0x37, 0x38, 0x39] = 0x29B1 := by decide +kernel

/-- 9.8: the claim C1, made at station 1 and home with station 7's objection. -/
theorem test_claim_bytes :
    Frame.content { origin := 1, hop := 0, body := .claim { resource := 30, mode := .shared, sequence := 3, patience := 0, objection := none } } =
      [0x51, 0x01, 0x00, 0x5E, 0x03, 0x00, 0xFF] ∧
    Frame.content { origin := 1, hop := 2, body := .claim { resource := 30, mode := .shared, sequence := 3, patience := 0, objection := some 7 } } =
      [0x51, 0x01, 0x02, 0x5E, 0x03, 0x00, 0x07] := by decide

/-- 9.8: station 1's SETTLE REFUSED. -/
theorem test_settle_bytes :
    Frame.content { origin := 1, hop := 0, body := .settle { resource := 30, mode := .shared, sequence := 3, outcome := .refused } } =
      [0x52, 0x01, 0x00, 0x5E, 0x03, 0x02] := by decide

theorem test_roll_reads_back :
    parseFrame (from5 (.roll (roll26 [{ addr := 0x85, holds := [0x87], pendings := [(0x1E, 3)] }]))).bytes =
      some (from5 (.roll (roll26 [{ addr := 0x85, holds := [0x87], pendings := [(0x1E, 3)] }]))) := by decide +kernel

theorem test_release_and_roster_lengths :
    (from5 (.release { resource := 0, mode := .exclusive, note := List.replicate 32 0 })).length = 39 ∧
    (from5 (.roster { sequence := 0, stations := [0x05] })).length = 8 ∧ (from5 (.probe 1)).length = 6 := by decide

/-! ### Commands: the spec's examples -/

/-- 8.10: the record of 4 bytes commits, completes OK and is read in 6 bytes. -/
def port7 : State := { at3 .active with host := { (at3 .active).host with recordInt := true } }
def written7 : State := afterAll [.requestAssemblyByte 7, .requestAssemblyByte 4, .requestAssemblyByte 3, .requestAssemblyByte 7] port7

theorem test_clear_fault_written : written7.table.queue.map QueueRecord.bytes = [[6, 3, 7, 7, 0, 1]] ∧
    written7.host.assembly = .empty ∧ written7.table.occupied = 0 ∧ written7.intAsserted = true := by decide +kernel

theorem test_completion_read :
    (after (.completionRead false) written7).host.dataOut = 6 ∧
    (afterAll (List.replicate 5 (.completionRead false)) written7).host.readPos = 5 ∧
    (afterAll (List.replicate 6 (.completionRead false)) written7).table.queue = [] ∧
    (afterAll (List.replicate 6 (.completionRead false)) written7).intAsserted = false := by decide +kernel

/-- 8.11: a full queue and a full table. -/
theorem test_full_table_refuses :
    (after (.query (hr 1 1 [3])) (fullTable (at3 .active))).host.refused = true := by decide +kernel

theorem test_sixteenth_notice_is_lost :
    (State.raiseState .restart .active (queued 14 1 (at3 .active))).table.queue.length = 16 ∧
    (State.raiseState .restart .active (queued 14 2 (at3 .active))).host.noticeLost = true := by decide +kernel

/-- 2.13, events 3 and 6: the claim that yields is refused at its return. -/
def yielding1 : State :=
  after (.claimReceipt 7 0 { resource := 30, mode := .exclusive, sequence := 51, patience := 2, objection := none })
    (put 0 (slotOf (.acquire 30 1 1 none) .claiming 1 (some (acq 30 .shared true none .first none)) none)
      (claiming [{ claimOf 30 .shared 3 .circulating with patience := 0 }] (at3 .active)))

theorem test_claim_yields : yielding1.claim.claims.map ClaimEntry.yielding = [true] ∧
    (yielding1.lease.record 30).intents.map Intent.originator = [7] ∧
    yielding1.ring.forwarding.map (fun f => (f.hop, f.body)) =
      [(1, .claim { resource := 30, mode := .exclusive, sequence := 51, patience := 2, objection := none })] := by decide +kernel

theorem test_claim_is_refused :
    let t := after (.ownClaimReturn 2 { resource := 30, mode := .shared, sequence := 3, patience := 0, objection := some 7 }) yielding1
    t.claim.claims = [] ∧ t.outbound.map (fun f => f.frame.body) =
      [.settle { resource := 30, mode := .shared, sequence := 3, outcome := .refused }] := by decide +kernel

/-- 2.13, event 4: the claim that precedes objects. -/
theorem test_claim_objects :
    (after (.claimReceipt 1 1 { resource := 30, mode := .shared, sequence := 3, patience := 0, objection := none })
      (claiming [{ claimOf 30 .exclusive 51 .circulating with patience := 2 }] (at3 .active))).ring.forwarding.map Frame.body =
      [.claim { resource := 30, mode := .shared, sequence := 3, patience := 0, objection := some 3 }] := by decide +kernel

theorem test_configure : (after (.configure (hr 0 1 [10, 0, 20, 2])) (State.initial 3)).station.state = .joining ∧
    (after (.configure (hr 0 1 [0, 0, 20, 2])) (State.initial 3)).station.state = .unconfigured := by decide +kernel

theorem test_acquire_claims :
    let t := after (.acquire (hr 0 1 [7, 2, 1])) (at3 .active)
    t.claim.claims.map ClaimEntry.sequence = [1] ∧ (t.table.slot 0).map Slot.phase = some .claiming ∧
      t.outbound.map (fun f => f.frame.body) = [.claim { claim7 .exclusive 0 with sequence := 1 }] := by decide +kernel

theorem test_release_queues :
    let t := after (.release (hr 0 1 [7, 1, 0xAA])) (holding [holdOf 7 .exclusive .held [(0, 9)]] (at3 .active))
    t.outbound.map (fun f => f.frame.body) = [.release { resource := 7, mode := .exclusive, note := [0xAA] }] ∧
      t.lease.holds = [holdOf 7 .exclusive .releasing []] ∧ (t.lease.record 7).note = .present [0xAA] := by decide +kernel

theorem test_cancel_not_found :
    (after (.cancel (hr 0 1 [5])) (at3 .active)).table.queue.map QueueRecord.bytes = [[6, 0, 1, 4, 0x25, 1]] := by decide +kernel

theorem test_stats_clears : (after (.stats (hr 0 1 [])) { at3 .active with ring := { (at3 .active).ring with hopCount := 300 } }).table.queue.map
    QueueRecord.bytes = [[12, 0, 1, 6, 0, 1, 0, 0, 1, 44, 0, 0]] := by decide +kernel

theorem test_leave_alone_halts : (after (.leave (hr 0 1 [])) (at3 .active)).station.state = .halted := by decide +kernel
theorem test_restart_joins : (after (.restart (hr 0 1 [])) (at3 .halted)).station.state = .joining := by decide +kernel

/-- A short strobe is not taken, and RD and WR low together are no read (R212). -/
theorem test_strobes :
    (after (.requestAssemblyByte 7 { lowNs := 59, both := false }) (at3 .active)).host.assembly = .empty ∧
    (after (.completionRead false { lowNs := 60, both := true }) written7).host.readPos = 0 ∧
    (after (.completionRead false { lowNs := 60, both := false }) written7).host.readPos = 1 := by decide +kernel

/-- The end of a pulse that was filtered out changes nothing; power-on reset lasts tPOR (R211). -/
theorem test_reset_ends :
    after (.resetReleased .pinReleased 9) (after (.resetAsserted 999) (at3 .active)) = at3 .active ∧
    (let s := after .powerFail (at3 .active)
     (after (.resetReleased .powerOnEnds 9) { s with porTimer := 99999 }).inReset = true ∧
     (after (.resetReleased .powerOnEnds 9) { s with porTimer := 100000 }).station.address = 9 ∧
     (State.idleStep s).porTimer = 1 ∧
     (State.idleStep { s with porTimer := 100000 }).pending = [.resetReleased .powerOnEnds 3]) := by decide +kernel

/-- A pin released while power-on reset still holds the part gives its straps to the end of power-on reset (R139, R210). -/
theorem test_straps_at_the_pin :
    let s := after (.resetReleased .pinReleased 9) (after .powerFail (after (.resetAsserted 1000) (at3 .active)))
    s.inReset = true ∧ s.straps = 9 ∧ s.station.address = 9 ∧
      (State.idleStep { s with porTimer := 100000 }).pending = [.resetReleased .powerOnEnds 9] := by decide +kernel

theorem test_reset_pulse : (after (.resetAsserted 999) (at3 .active)).inReset = false ∧ (after (.resetAsserted 1000) (at3 .active)).inReset = true ∧
    (after (.resetReleased .pinReleased 9) (after (.resetAsserted 1000) (at3 .active))).station.address = 9 ∧
    (after .powerFail (at3 .active)).bypassAsserted = true := by decide +kernel

theorem test_status_write_of_ff :
    let host := { HostPort.initial with assembly := .kind 2, refused := true, noticeLost := true }
    let probe := { ProbeUnit.initial with done := true, busy := true }
    (after (.abandon 0xFF) { at3 .active with host := host, probe := probe }).statusByte = 0 := by decide +kernel

theorem test_clears_leave_the_others :
    let s : State := { at3 .active with host := { (at3 .active).host with refused := true, noticeLost := true },
                                        probe := { ProbeUnit.initial with done := true, busy := true } }
    (after (.clearRefused 0) s).statusByte = 0x0E ∧ (after (.clearNoticeLost 0) s).statusByte = 0x0D ∧
      (after (.clearProbeDone 0) s).statusByte = 0x0B ∧ (after (.clearProbeBusy 0) s).statusByte = 0x07 := by decide +kernel

theorem test_intmask : portRead 3 (after (.intmaskWrite 0xFE) (at3 .active)) = 2 := by decide +kernel
theorem test_probe_time : let t := after .probeTimeLoRead { at3 .active with probe := { ProbeUnit.initial with time := 0x1234 } }
    t.host.dataOut = 0x34 ∧ portRead 5 t = 0x12 := by decide +kernel
theorem test_probe_first_sequence : (after (.probe 0) (at3 .active)).probe.sequence = 1 ∧
    (after (.probe 0) (State.initial 3)).probe.busy = true := by decide +kernel
theorem test_ident : portRead 7 (after (.ignoredWrite .ident 0xFF) (at3 .active)) = 0x23 := by decide +kernel

theorem test_framing : (after (.framingDiscard .idle) (after .frameStart (at3 .active))).ring.formatCount = 1 ∧
    (after (.formatDiscard [0x51]) (at3 .active)).ring.formatCount = 1 := by decide +kernel

theorem test_grant_and_release_of_others :
    let t := after (.settleReceipt 5 0 (settle7 .granted)) (record7 { ResourceRecord.initial with intents := [intent5 4 0] } (at3 .active))
    (t.lease.record 7).holders = [5] ∧ (t.lease.record 7).intents = [] ∧
      ((after (.releaseReceipt 5 0 { resource := 7, mode := .exclusive, note := [] }) t).lease.record 7).note = .absent := by decide +kernel

theorem test_roll_passes : (after (.rollReceipt 5 0 (roll26 [entryOf 5])) (at3 .active)).ring.forwarding.map Frame.body =
      [.roll (roll26 [entryOf 5, entryOf 3])] ∧
    (after (.rollReceipt 5 0 (roll26 [entryOf 3])) (at3 .active)).station.state = .halted := by decide +kernel

theorem test_roster_reclaims :
    let s : State := record7 { mode := some .exclusive, holders := [5], intents := [], note := .absent } (at3 .active)
    let t := after (.rosterReceipt 1 0 { sequence := 0, stations := [0x01, 0x03] })
      { s with roll := { s.roll with roster := [⟨1, false⟩, ⟨3, false⟩, ⟨5, false⟩] } }
    (t.lease.record 7).holders = [] ∧ t.table.queue.map QueueRecord.bytes = [[8, 0, 1, 0x82, 2, 0, 1, 5]] := by decide +kernel

theorem test_probe_passes : (after (.probeForward 5 14 9) (at3 .active)).ring.forwarding.map Frame.hop = [15] ∧
    (after (.probeForward 5 15 9) (at3 .active)).ring.hopCount = 1 := by decide +kernel

theorem test_own_roll_completes :
    let t := after (.ownRollReturn 2 (roll26 [entryOf 0x83, entryOf 5])) (rolling .circulating true 0 (at3 .joining))
    t.station.state = .active ∧ t.roll.roster = [⟨3, true⟩, ⟨5, false⟩] ∧ t.roll.timer = some 0 ∧
      t.outbound.map (fun f => f.frame.body) = [.roster { sequence := 2, stations := [0x83, 5] }] := by decide +kernel

theorem test_own_probe_and_strip :
    let t := after (.ownProbeReturn 2 9) { at3 .active with probe := { ProbeUnit.initial with phase := .out, sequence := 9, sendTime := 2 } }
    t.probe.time = 5 ∧ t.probe.done = true ∧
      (after (.ownFrameStripped 20 (.settle (settle7 .refused))) (at3 .active)).ring.forwarding = [] := by decide +kernel

/-- 7.11, part one: the RELEASE goes ahead once the relief counter stands at 8. -/
theorem test_relief :
    let s : State := sending (.release { resource := 7, mode := .shared, note := [] }) none (at3 .active)
    let waits (n : Nat) : State := { s with ring := { s.ring with
      transmitter := .endDue, relief := n, forwarding := [from1 (.claim (claim7 .shared 0))] } }
    (after .transmitChoice (waits 7)).ring.transmitter = .sendingForwarded 0 ∧ (after .transmitChoice (waits 7)).ring.relief = 8 ∧
      (after .transmitChoice (waits 8)).ring.transmitter = .sendingOwn 0 ∧
      (after .transmitChoice (waits 8)).ring.relief = 0 := by decide +kernel

/-- An own frame goes out at once on an idle transmitter, ahead of a frame received after it (R173). -/
theorem test_idle_chooses_at_once :
    (after (.probe 0) (at3 .active)).ring.transmitter = .sendingOwn 0 ∧
    (after (.probeForward 5 1 9) (after (.probe 0) (at3 .active))).ring.transmitter = .sendingOwn 0 ∧
    (after (.probeForward 5 1 9) (at3 .active)).ring.transmitter = .sendingForwarded 0 := by decide +kernel

/-- 10.1, event 7: a joining station forwards the ROSTER first, and its new roll waits behind it (R173). -/
theorem test_forwarded_roster_goes_first :
    let t := after (.rosterReceipt 1 0 { sequence := 1, stations := [0x01, 0x83] }) (rolling .abandoned true 0 (at3 .joining))
    t.ring.transmitter = .sendingForwarded 0 ∧ t.ring.relief = 1 ∧ t.outbound.map (fun f => f.frame.body.isRoll) = [true] := by
  decide +kernel

theorem test_sent_claim_circulates :
    (after .claimTransmitted (claiming [claimOf 7 .shared 4 .queued]
      (sending (.claim (claim7 .shared 1)) (some 0) (at3 .active)))).claim.claims =
      [{ claimOf 7 .shared 4 .circulating with timer := 0 }] := by decide +kernel

theorem test_sent_settle_completes :
    ((after .settleTransmitted (put 0 (slotOf (.acquire 7 1 0 none) .settling 1
      (some (acq 7 .shared false none .first (some .refused))) none)
      (sending (.settle (settle7 .refused)) (some 0) (at3 .active)))).table.queue.map QueueRecord.bytes) =
      [[6, 0, 9, 2, 0x10, 1]] := by decide +kernel

theorem test_sent_release_removes :
    let t := after .releaseTransmitted (put 0 (slotOf (.release 7 []) .releasing 1 none (some done))
      (holding [holdOf 7 .shared .releasing []] (sending (.release { resource := 7, mode := .shared, note := [] }) (some 0) (at3 .active))))
    t.lease.holds = [] ∧ t.table.queue.map QueueRecord.bytes = [[6, 0, 9, 3, 0, 1]] := by decide +kernel

theorem test_sent_roll_and_roster :
    (after .rollTransmitted (rolling .queued false 0 (sending (.roll (roll26 [entryOf 3])) none (at3 .active)))).roll.outstanding =
      some { sequence := 2, stamp := 6, phase := .circulating, sent := true, age := 0 } ∧
    (after .rosterTransmitted (sending (.roster { sequence := 2, stations := [3] }) none
      { at3 .active with roll := { RollUnit.initial with held := true } })).roll.outstanding =
      some { sequence := 1, stamp := 7, phase := .queued, sent := false, age := 0 } ∧
    (after .heldOrigination { at3 .leaving with roll := { RollUnit.initial with held := true } }).roll.held = false := by decide +kernel

theorem test_sent_probe :
    (after .probeTransmitted (sending (.probe 1) none (at3 .active))).probe.phase = .out ∧
    (after .probeTransmitted (sending (.probe 1) none (at3 .active))).probe.sendTime = 7 := by decide +kernel

theorem test_link : (after .linkUp (down3 .broken)).station.state = .resync ∧ (after .linkDown (at3 .active)).station.state = .broken := by
  decide +kernel

theorem test_expiries :
    (after (.circuitTimeout 4) (claiming [claimOf 7 .shared 4 .circulating] (at3 .active))).claim.claims = [] ∧
    ((after (.intentExpiry 7 5) (record7 { ResourceRecord.initial with intents := [intent5 4 3999] } (at3 .active))).lease.record 7).intents =
      [intent5 4 3999] ∧
    ((after (.intentExpiry 7 5) (record7 { ResourceRecord.initial with intents := [intent5 4 4000] } (at3 .active))).lease.record 7).intents =
      [] := by decide +kernel

/-- The period: 10 ms and 3 times 200 µs, in character times. -/
theorem test_roll_timer :
    (after .rollTimerExpiry { at3 .active with roll := { RollUnit.initial with timer := some 105999 } }).roll.outstanding = none ∧
    (after .rollTimerExpiry { at3 .active with roll := { RollUnit.initial with timer := some 106000 } }).roll.sequence = 1 := by decide +kernel

theorem test_roll_lost :
    (after .rollLost (rolling .circulating true 6000 (at3 .broken))).roll.retired = some { sequence := 2, stamp := 6, age := 0 } ∧
    (after .abandonedRollExpiry (rolling .abandoned false 6000 (at3 .resync))).roll.sequence = 1 ∧
    (after .retiredRollExpiry { at3 .active with roll := { RollUnit.initial with retired := some { sequence := 2, stamp := 6, age := 6000 } } }).roll.retired =
      none := by decide +kernel

theorem test_probe_timeout :
    (after .probeTimeout { at3 .active with probe := { ProbeUnit.initial with phase := .out, timer := 65535 } }).probe.time = 0xFFFF := by
  decide +kernel

theorem test_end_of_leaving : (after .endOfLeaving (at3 .leaving)).station.state = .halted ∧
    (after .endOfLeaving (holding [holdOf 7 .shared .releasing []] (at3 .leaving))).station.state = .leaving := by decide +kernel

theorem test_slot_posting :
    let s := put 2 (slotOf .stats .posting 1 none (some done)) (at3 .active)
    (after .slotPosting { s with table := { s.table with posting := [2] } }).table.queue.length = 1 := by decide +kernel

/-- A character passes on an idle ring: IDLE out, and the microsecond counter at its tenth. -/
def quiet : State := { at3 .active with roll := { RollUnit.initial with timer := some 0 } }
theorem test_idle_step : (State.idleStep quiet).ring.txLine = .idle ∧
    (State.idleStep { quiet with station := { quiet.station with subMicro := 9 } }).station.micros = 8 ∧
    (State.idleStep (at3 .leaving)).pending = [.endOfLeaving] := by decide +kernel

/-! ### The statements' hypotheses are met

One theorem for each statement with hypotheses: states and operands that meet them together, clause by clause. -/

/-- An existential over an optional value, as a test. -/
theorem exists_some_iff {α : Type} (o : Option α) (P : α → Prop) [DecidablePred P] :
    (∃ e, o = some e ∧ P e) ↔ o.any (fun e => decide (P e)) = true := by cases o <;> simp

/-- A universal over an optional value, as a test. -/
theorem forall_some_iff {α : Type} (o : Option α) (P : α → Prop) [DecidablePred P] :
    (∀ e, o = some e → P e) ↔ o.all (fun e => decide (P e)) = true := by cases o <;> simp

/-- The head of the Outbound Queue is being sent in `sending`. -/
theorem sends_sending (b : Body) (o : Option SlotIx) (s : State) (h : s.inReset = false) :
    sends { frame := { origin := 3, hop := 0, body := b }, owner := o } [] (sending b o s) := ⟨h, ⟨9, rfl⟩, rfl⟩

theorem test_witness_StepRunsFrontCommand : { at3 .active with pending := [.linkUp, .linkDown] }.pending = .linkUp :: [.linkDown] := rfl

theorem quiet_not_due (c : Instr) : ¬ isDue quiet c := by
  have h2 : cfg.interval.toNat = 10 := by decide
  have hk : ∀ k, ((quiet.lease.record k).intents) = [] := by decide +kernel
  have some_of {α : Type} {o : Option α} {x y : α} (h : o = some x) (g : o = some y) : x = y := Option.some.inj (h.symm.trans g)
  rintro (⟨-, h⟩ | ⟨a, r, h, -⟩ | ⟨n, f, r, h, -⟩ | ⟨⟨n, h, hn⟩, -⟩ | ⟨⟨n, h, -⟩, -⟩ | ⟨x, e, -, h, -⟩ | ⟨x, k, i, -, h, -⟩ |
    ⟨x, n, hc, h, hn, -⟩ | ⟨x, o, -, h, -⟩ | ⟨x, o, -, h, -⟩ | ⟨h, -⟩ | ⟨h, -⟩ | ⟨h, -⟩ | ⟨h, -⟩)
  · rcases h with h | ⟨-, h | h⟩
    · cases h
    · exact h rfl
    · exact h rfl
  · cases h
  · cases h
  · have := some_of h (rfl : quiet.ring.lossTimer = some 0); omega
  · cases h
  · cases h
  · rw [hk] at h; cases h
  · have h0 := some_of h (rfl : quiet.roll.timer = some 0)
    have h1 := some_of hc (rfl : quiet.station.config = some cfg)
    rw [h1, h2] at hn; omega
  · cases h
  · cases h
  · cases h
  · cases h
  · cases h
  · exact h rfl

theorem test_witness_IdleStepPassesTime :
    let off := after .powerFail (at3 .active)
    ((after (.resetAsserted 1000) (at3 .active)).pending = [] ∧ (after (.resetAsserted 1000) (at3 .active)).supplyLow = false ∧
      (after (.resetAsserted 1000) (at3 .active)).resetLow = true) ∧
    (off.pending = [] ∧ off.supplyLow = true ∧ { off with porTimer := 99999 }.porTimer < 100000 ∧
      100000 ≤ { off with porTimer := 100000 }.porTimer) ∧
    ((at3 .leaving).pending = [] ∧ (at3 .leaving).inReset = false ∧ isDue (at3 .leaving) .endOfLeaving) ∧
    (quiet.pending = [] ∧ quiet.inReset = false ∧ ∀ c, ¬ isDue quiet c) ∧ quiet.station.subMicro + 1 < 10 ∧
    { quiet.station with subMicro := 8 }.subMicro + 1 < 10 ∧ { quiet.station with subMicro := 9 }.subMicro + 1 = 10 :=
  ⟨by decide +kernel, by decide +kernel,
    ⟨rfl, rfl, Or.inr (Or.inr (Or.inr (Or.inr (Or.inr (Or.inr (Or.inr (Or.inr (Or.inr (Or.inr (Or.inr (Or.inr (Or.inl
      ⟨rfl, rfl, rfl, rfl, rfl⟩))))))))))))⟩,
    ⟨rfl, rfl, quiet_not_due⟩, by decide, by decide, by decide⟩

/-- A transmitter in each condition, the head of each queue a PROBE of 6 bytes. -/
theorem test_witness_characters_sent :
    let s (x : Transmitter) : State := { at3 .active with
      outbound := [made (at3 .active) none (.probe 1)], ring := { (at3 .active).ring with transmitter := x, forwarding := [from5 (.probe 1)] } }
    (∀ x ∈ [Transmitter.silent, .idle, .gap 0, .gap 4, .endDue, .sendingOwn 0, .sendingOwn 6, .sendingForwarded 0, .sendingForwarded 5,
      .sendingForwarded 6], (s x).ring.transmitter = x) ∧
    ((s (.sendingForwarded 5)).characterTime.ring.transmitter = .sendingForwarded 6 ∧ 5 < (from5 (.probe 1)).length) ∧
    ((s (.sendingForwarded 6)).characterTime.ring.transmitter = .endDue ∧ 6 = (from5 (.probe 1)).length) := by decide +kernel

theorem test_witness_ResetHoldsAndReleasesThePart :
    let s := after .powerFail (at3 .active)
    let t := after (.resetAsserted 1000) (at3 .active)
    (1000 ≤ 1000 ∧ 999 < 1000) ∧ (s.inReset = true ∧ isPower .linkUp = false ∧ isRead .linkUp = false) ∧
    (t.inReset = true ∧ isPower (.probeTimeLoRead) = false ∧ isRead (.probeTimeLoRead) = true ∧
      isRead (.probeTimeLoRead { lowNs := 59, both := false }) = false ∧ isRead (.completionRead true { lowNs := 60, both := true }) = false) ∧
    ({ s with porTimer := 100000 }.supplyLow = true ∧ 100000 ≤ { s with porTimer := 100000 }.porTimer ∧ s.resetLow = false) ∧
    (¬ (s.supplyLow = true ∧ 100000 ≤ { s with porTimer := 99999 }.porTimer)) ∧ ¬ (t.supplyLow = true) ∧
    (t.resetLow = true ∧ t.supplyLow = false) ∧ (s.resetLow = false) ∧
    ((after .powerFail t).resetLow = true ∧ (after .powerFail t).supplyLow = true) := by decide +kernel

/-- Lengths 2 and 3 divide the row of KIND; the buffer stores up to its fortieth byte. -/
theorem test_witness_WrittenBytesAssembleARecord :
    let long : Assembly := .counting (List.replicate 40 2) 200 40
    let held (a : Assembly) : State := { at3 .active with host := { HostPort.initial with assembly := a } }
    ((at3 .active).inReset = false ∧ (at3 .active).host.assembly = .empty ∧ (hr 0 1 [5]).wf = true ∧ (hr 0 1 []).wf = true) ∧
    ((held (.kind 5)).host.assembly = .kind 5 ∧ 2 < (3 : Byte).toNat ∧ (2 : Byte).toNat ≤ 2) ∧
    ((held (.counting [5, 5] 5 2)).host.assembly = .counting [5, 5] 5 2 ∧ 2 + 1 ≠ (5 : Byte).toNat) ∧
    ((held long).host.assembly = long ∧ 40 + 1 ≠ (200 : Byte).toNat) ∧
    ((held (.counting (0 :: [3]) 3 2)).host.assembly = .counting (0 :: [3]) 3 2 ∧ 2 + 1 = (3 : Byte).toNat ∧ 9 < (10 : Byte).toNat) ∧
    (taken .shortest ∧ ¬ taken { lowNs := 59, both := false }) := by decide +kernel

theorem test_witness_UnfitRecordIsRefused :
    (formOk .query (hr 8 1 [5]) = false ∧ formOk .query (hr 7 1 [5]) = true ∧ formOk .query (hr 7 1 []) = false) ∧
    (formOk .release (hr 0 1 (5 :: 32 :: List.replicate 32 0)) = true ∧ formOk .release (hr 0 1 (5 :: 33 :: List.replicate 33 0)) = false) ∧
    ((fullTable (at3 .active)).inReset = false ∧ ∀ i, (fullTable (at3 .active)).table.slot i ≠ none) ∧
    (formOk .restart (hr 0 1 []) = true ∧ (fullTable (State.initial 3)).station.state = .unconfigured ∧
      ∀ i, (fullTable (State.initial 3)).table.slot i ≠ none) := by decide +kernel

/-- The body of a good record of each kind. -/
def bodyOf : RequestKind → List Byte
  | .configure => [10, 0, 20, 2]
  | .acquire => [7, 1, 1]
  | .release => [7, 0]
  | .cancel => [5]
  | .query => [7]
  | .stats => []
  | .clearFault => []
  | .leave => []
  | .restart => []

theorem test_witness_StationStateRefusesRequest :
    (∀ k ∈ [RequestKind.acquire, .release, .cancel, .clearFault, .leave, .restart],
      finds 0 k (hr 0 1 (bodyOf k)) (State.initial 3) ∧ notReadyIn k (State.initial 3).station.state) ∧
    (∀ st ∈ [StationState.joining, .active, .broken, .resync],
      finds 0 .configure (hr 0 1 (bodyOf .configure)) (at3 st) ∧ notReadyIn .configure (at3 st).station.state) ∧
    (∀ k ∈ [RequestKind.configure, .acquire, .leave],
      finds 0 k (hr 0 1 (bodyOf k)) (at3 .leaving) ∧ notReadyIn k (at3 .leaving).station.state) ∧
    (∀ k ∈ [RequestKind.configure, .acquire, .release, .cancel, .clearFault, .leave],
      finds 0 k (hr 0 1 (bodyOf k)) (at3 .halted) ∧ notReadyIn k (at3 .halted).station.state) ∧
    (finds 0 .release (hr 0 1 (bodyOf .release)) (at3 .leaving) ∧ (at3 .leaving).station.state = .leaving) := by decide +kernel

/-- The limits at 13 and 14 completion records, 15 and 16 records, and a slot in POSTING. -/
theorem test_witness_CompletionsArePostedInOrder :
    let sl := slotOf .stats .posting 1 none (some done)
    let s (n m : Nat) : State := put 2 sl (queued n m (at3 .active))
    let posting (n m : Nat) : State := { s n m with table := { (s n m).table with posting := [2] } }
    ((s 13 2).table.slot 2 = some sl ∧ (s 13 2).table.completions < 14 ∧ (s 13 2).table.queue.length < 16 ∧ (s 13 2).table.posting = []) ∧
    ((s 14 0).table.slot 2 = some sl ∧ ¬ (s 14 0).table.completions < 14) ∧ ¬ (s 13 3).table.queue.length < 16 ∧
    ((posting 0 0).table.posting ≠ [] ∧ (posting 0 0).inReset = false ∧ (posting 0 0).table.posting = 2 :: [] ∧
      (posting 0 0).table.slot 2 = some sl ∧ sl.completion = some done) ∧
    ((posting 13 2).table.completions < 14 ∧ (posting 13 2).table.queue.length < 16) ∧
    ¬ ((posting 14 1).table.completions < 14 ∧ (posting 14 1).table.queue.length < 16) ∧
    ((posting 13 2).table.posting.length ≤ 8 ∧ takesCompletion (posting 13 2).table ∧ ¬ takesCompletion (posting 14 1).table) := by decide +kernel

/-- Two slots in POSTING: with 12 completion records both post, with 13 the first alone (R106). -/
theorem test_slots_post_one_after_another :
    let s (n : Nat) : State := put 5 (slotOf .stats .posting 1 none (some done)) (put 2 (slotOf .stats .posting 2 none (some done)) (queued n 0 (at3 .active)))
    let t (n : Nat) := RequestTable.postWaiting 8 { (s n).table with posting := [2, 5] }
    (t 12).posting = [] ∧ (t 12).queue.length = 14 ∧ (t 13).posting = [5] ∧ (t 13).slot 2 = none := by decide +kernel

theorem test_witness_NoticeEntersOrIsLost :
    (queued 14 1 (at3 .active)).table.queue.length < 16 ∧ 16 ≤ (queued 14 2 (at3 .active)).table.queue.length := by decide +kernel

theorem test_witness_ConfigureJoinsTheRing :
    let inRange (i u r : Nat) : Prop := 1 ≤ i ∧ 1 ≤ u ∧ u ≤ 1000 ∧ 1 ≤ r ∧ r ≤ 7
    (finds 0 .configure (hr 0 1 [1, 3, 0xE8, 7]) (State.initial 3) ∧ (State.initial 3).station.state = .unconfigured ∧
      requestOf .configure (hr 0 1 [1, 3, 0xE8, 7]) = .configure 1 1000 7) ∧
    (inRange 1 1000 7 ∧ inRange 255 1 1) ∧ requestOf .configure (hr 0 1 [0, 3, 0xE9, 8]) = .configure 0 1001 8 ∧
    (¬ inRange 0 1 1 ∧ ¬ inRange 1 0 1 ∧ ¬ inRange 1 1001 1 ∧ ¬ inRange 1 1 0 ∧ ¬ inRange 1 1 8) := by decide +kernel

/-- The operand limits 63 and 64, modes 1, 2 and 3, waits 1 and 2; a follow-on equal to the first; a fault flag; a tag in use, the
follow-on held by the client, the first named by another ACQUIRE of the client. -/
theorem test_witness_AcquireIsChecked :
    let s := at3 .active
    let faulted := s.mapTable (RequestTable.setFault 0 true)
    let used := put 1 (slotOf (.acquire 9 1 0 none) .waiting 1 (some (acq 9 .shared true none .first none)) none) s
    let held := holding [holdOf 8 .shared .held [(0, 4)]] s
    (finds 0 .acquire (hr 0 1 [7, 1, 1]) s ∧ proceeds s.station.state) ∧
    (∀ b ∈ [[64, 1, 1], [63, 0, 1], [63, 3, 1], [63, 1, 2], [7, 1, 1, 64]], acquireOf (hr 0 1 b) = none) ∧
    acquireOf (hr 0 1 [63, 2, 0]) = some (acq 63 .exclusive false none .first none) ∧
    acquireOf (hr 0 1 [7, 1, 1, 7]) = some (acq 7 .shared true (some 7) .first none) ∧ (7 : Resource) ≤ 7 ∧
    acquireOf (hr 0 1 [7, 1, 1, 8]) = some (acq 7 .shared true (some 8) .first none) ∧ (7 : Resource) < 8 ∧
    (finds 0 .acquire (hr 0 1 [7, 1, 1, 8]) faulted ∧ faulted.table.fault 0 = true) ∧
    (finds 0 .acquire (hr 0 9 [7, 1, 1]) used ∧ used.table.fault 0 = false ∧ duplicateRequest 0 0 9 (acq 7 .shared true none .first none) used) ∧
    (finds 0 .acquire (hr 0 1 [9, 1, 1]) used ∧ duplicateRequest 0 0 1 (acq 9 .shared true none .first none) used) ∧
    (finds 0 .acquire (hr 0 1 [7, 1, 1, 8]) held ∧ duplicateRequest 0 0 1 (acq 7 .shared true (some 8) .first none) held) := by
  refine ⟨by decide +kernel, by decide +kernel, by decide +kernel, by decide +kernel, by decide, by decide +kernel, by decide,
    by decide +kernel, ⟨by decide +kernel, by decide +kernel, .inr ⟨1, _, by decide, rfl, rfl, .inl rfl⟩⟩,
    ⟨by decide +kernel, .inr ⟨1, _, by decide, rfl, rfl, .inr ⟨9, .inl rfl, 9, 1, 0, none, rfl, .inl rfl⟩⟩⟩,
    ⟨by decide +kernel, .inl ⟨8, _, (0, 4), .inr rfl, rfl, by decide, rfl⟩⟩⟩

/-- A waiting ACQUIRE of resource 7 in slot 0. -/
def waiting7 (m : Mode) (w : Bool) (s : State) : State :=
  put 0 (slotOf (.acquire 7 1 1 none) .waiting 1 (some (acq 7 m w none .first none)) none) s

/-- The model's own test says when no earlier slot stands. -/
theorem not_standsEarlier (i : SlotIx) (k : Resource) (s : State) (h : s.table.earlierStands i k = false) : ¬ standsEarlier i k s := by
  rintro ⟨sl, j, x, b, hi, hj, hlt, hb, hp, hk⟩
  have hs : x.standsFor = some k := by
    have h1 : x.phase.stands = true := by rcases hp with h | h | h <;> rw [h] <;> rfl
    have h2 : b.current = k := by
      unfold Acquire.current; rcases hk with ⟨h3, h4⟩ | ⟨h3, h4⟩ <;> rw [h3] <;> exact h4
    simp [Slot.standsFor, hb, h1, h2]
  have : s.table.earlierStands i k = true := by
    simp only [RequestTable.earlierStands, hi, List.any_eq_true]
    exact ⟨j, List.mem_finRange j, by simp [hj, hlt, hs]⟩
  rw [h] at this; cases this

theorem test_witness_ArbitrationFollowsItsTable :
    let a := acq 7 .shared true none .first none
    let joins (s : State) := (∃ e, s.lease.hold? 7 = some e ∧ e.phase = .held ∧ e.mode = .shared) ∧ a.mode = .shared ∧
      ¬ standsEarlier 0 7 s
    let waits (s : State) := (∃ e, s.lease.hold? 7 = some e ∧ (e.phase = .releasing ∨ e.mode = .exclusive ∨ a.mode = .exclusive)) ∨
      standsEarlier 0 7 s ∨ (∃ e, s.claim.claimOn 7 = some e) ∨ conflictShown 7 a.mode s
    let count (s : State) := s.lease.holds.length + s.claim.claims.length
    let claims (s : State) := s.station.state = .active ∧ s.claim.claims.length < 4
    let sh := waiting7 .shared true (holding [holdOf 7 .shared .held [(1, 9)]] (at3 .active))
    let ex := waiting7 .shared true (holding [holdOf 7 .exclusive .held [(1, 9)]] (at3 .active))
    let foreign := waiting7 .shared true (record7 { mode := some .exclusive, holders := [5], intents := [], note := .absent } (at3 .active))
    let others (n : Nat) := waiting7 .shared true (holding (List.replicate n (holdOf 9 .shared .held [(1, 9)])) (at3 .active))
    let busy := waiting7 .shared true (claiming (List.replicate 4 (claimOf 9 .shared 1 .queued)) (at3 .active))
    seeks a 7 ∧ joins sh ∧ (¬ joins ex ∧ waits ex) ∧ waits foreign ∧ (¬ joins (others 16) ∧ ¬ waits (others 16) ∧ 16 ≤ count (others 16)) ∧
    (¬ joins (others 15) ∧ ¬ waits (others 15) ∧ ¬ 16 ≤ count (others 15) ∧ claims (others 15)) ∧
    (¬ joins busy ∧ ¬ waits busy ∧ ¬ 16 ≤ count busy ∧ ¬ claims busy) := by
  have no (n : Nat) (m : Nat) (s : State) (h : s.lease.hold? 7 = none) (g : ¬ standsEarlier 0 7 s) (c : s.claim.claimOn 7 = none)
      (r : ¬ conflictShown 7 .shared s) (_ : n = m) :
      ¬ ((∃ e, s.lease.hold? 7 = some e ∧ e.phase = .held ∧ e.mode = .shared) ∧ Mode.shared = .shared ∧ ¬ standsEarlier 0 7 s) ∧
      ¬ ((∃ e, s.lease.hold? 7 = some e ∧ (e.phase = .releasing ∨ e.mode = .exclusive ∨ Mode.shared = .exclusive)) ∨
        standsEarlier 0 7 s ∨ (∃ e, s.claim.claimOn 7 = some e) ∨ conflictShown 7 .shared s) := by
    simp [h, g, c, r]
  have h16 := no 0 0 (waiting7 .shared true (holding (List.replicate 16 (holdOf 9 .shared .held [(1, 9)])) (at3 .active)))
    (by decide +kernel) (not_standsEarlier _ _ _ (by decide +kernel)) (by decide +kernel) (by unfold conflictShown; decide +kernel) rfl
  have h15 := no 0 0 (waiting7 .shared true (holding (List.replicate 15 (holdOf 9 .shared .held [(1, 9)])) (at3 .active)))
    (by decide +kernel) (not_standsEarlier _ _ _ (by decide +kernel)) (by decide +kernel) (by unfold conflictShown; decide +kernel) rfl
  have hb := no 0 0 (waiting7 .shared true (claiming (List.replicate 4 (claimOf 9 .shared 1 .queued)) (at3 .active)))
    (by decide +kernel) (not_standsEarlier _ _ _ (by decide +kernel)) (by decide +kernel) (by unfold conflictShown; decide +kernel) rfl
  refine ⟨.inl ⟨rfl, rfl⟩, ⟨⟨_, rfl, rfl, rfl⟩, rfl, not_standsEarlier _ _ _ (by decide +kernel)⟩,
    ⟨?_, .inl ⟨_, rfl, .inr (.inl rfl)⟩⟩, .inr (.inr (.inr (.inl ⟨5, by decide +kernel, by decide, .inl (by decide +kernel)⟩))),
    ⟨h16.1, h16.2, by decide⟩, ⟨h15.1, h15.2, by decide, by decide⟩, ⟨hb.1, hb.2, by decide, by decide⟩⟩
  rintro ⟨⟨e, he, _, hm⟩, _⟩
  have : e = holdOf 7 .exclusive .held [(1, 9)] := by
    have h7 : (waiting7 .shared true (holding [holdOf 7 .exclusive .held [(1, 9)]] (at3 .active))).lease.hold? 7 =
      some (holdOf 7 .exclusive .held [(1, 9)]) := by decide +kernel
    rw [h7] at he; exact (Option.some.inj he).symm
  rw [this] at hm; cases hm

/-- Two ACQUIREs of resource 7 wait, the second behind the first. -/
def twoWait (s : State) : State :=
  put 1 (slotOf (.acquire 7 2 1 none) .waiting 2 (some (acq 7 .exclusive true none .first none)) none) (waiting7 .shared true s)

theorem test_witness_ReexaminationFollowsAcceptance :
    let s := twoWait (holding [holdOf 7 .exclusive .held [(1, 9)]] (at3 .active))
    (((1 : SlotIx), some (7 : Resource)) ∈ s.table.offer 7 ∧ ((1 : SlotIx), (none : Option Resource)) ∈ s.table.everyWaiting ∧
      ((1 : SlotIx), some (7 : Resource)) ∈ s.table.behind 0) ∧
    ((s.table.slot 0).bind Slot.waitsFor = some 7 ∧ (s.examine 0).2 = []) ∧ (s.table.slot 0).bind Slot.waitsFor ≠ some 8 ∧
    (twoWait (at3 .leaving)).station.state = .leaving ∧ (twoWait (at3 .halted)).station.state = .halted := by decide +kernel

/-- No slot is occupied and no hold has the client: the request is no duplicate. -/
theorem not_duplicate (i : SlotIx) (c : Client) (t : Byte) (a : Acquire) (s : State) (h1 : ∀ j, s.table.slot j = none)
    (h2 : ∀ e ∈ s.lease.holds, ∀ p ∈ e.clients, p.1 ≠ c) : ¬ duplicateRequest i c t a s := by
  rintro (⟨k, e, p, _, he, hp, hc⟩ | ⟨j, x, _, hj, _⟩)
  · exact h2 e (List.mem_of_find?_eq_some he) p hp hc
  · rw [h1 j] at hj; cases hj

/-- Each verdict for a new ACQUIRE, the joins with and without a follow-on. -/
theorem test_witness_AcquireIsExaminedAtOnce :
    let a (w : Bool) (f : Option Resource) := acq 7 .shared w f .first none
    let good (r : HostRecord) (x : Acquire) (s : State) := finds 0 .acquire r s ∧ proceeds s.station.state ∧ acquireOf r = some x ∧
      s.table.fault r.clientNo = false ∧ (∀ j, s.table.slot j = none) ∧ ∀ e ∈ s.lease.holds, ∀ p ∈ e.clients, p.1 ≠ r.clientNo
    let is (r : HostRecord) (x : Acquire) (v : Verdict) (s : State) := good r x s ∧ (started 0 r x s).arbitrate 0 x = v
    let sh := holding [holdOf 7 .shared .held [(1, 9)]] (at3 .active)
    let ex := holding [holdOf 7 .exclusive .held [(1, 9)]] (at3 .active)
    is (hr 0 1 [7, 1, 1]) (a true none) .join sh ∧ (is (hr 0 1 [7, 1, 1, 8]) (a true (some 8)) .join sh ∧ (7 : Resource) < 8) ∧
    is (hr 0 1 [7, 1, 1]) (a true none) .wait ex ∧ is (hr 0 1 [7, 1, 0]) (a false none) .wait ex ∧
    is (hr 0 1 [7, 1, 1]) (a true none) .tooMany (holding (List.replicate 16 (holdOf 9 .shared .held [(1, 9)])) (at3 .active)) ∧
    is (hr 0 1 [7, 1, 1]) (a true none) .claim (at3 .active) ∧ is (hr 0 1 [7, 1, 1]) (a true none) .heldBack (at3 .broken) := by
  decide +kernel

/-- Each verdict for a slot in WAITING, in either stage, with and without a follow-on to pass to. -/
theorem test_witness_examinations :
    let sh := holding [holdOf 7 .shared .held [(1, 9)]] (at3 .active)
    let ex := holding [holdOf 7 .exclusive .held [(1, 9)]] (at3 .active)
    let full := holding (List.replicate 16 (holdOf 9 .shared .held [(1, 9)])) (at3 .active)
    let is (a : Acquire) (v : Verdict) (s : State) := (put 0 (slotOf (.acquire 7 1 1 none) .waiting 1 (some a) none) s).arbitrate 0 a = v
    let stage1 (w : Bool) (f : Option Resource) := acq 7 .shared w f .first none
    let stage2 (w : Bool) : Acquire := { acq 5 .shared w (some 7) .second none with groups := [{ resource := 5, mode := .shared, note := .absent }] }
    (∀ f ∈ [none, some (8 : Resource)], is (stage1 true f) .join sh) ∧ is (stage2 true) .join sh ∧
    (∀ w ∈ [true, false], is (stage1 w none) .wait ex ∧ is (stage2 w) .wait ex) ∧
    (∀ a ∈ [stage1 true none, stage2 true], is a .tooMany full ∧ is a .claim (at3 .active) ∧ is a .heldBack (at3 .broken)) := by
  decide +kernel

/-- A reason to wait becomes a hold: the join of stage 2 completes with both groups, and the failure of stage 2 gives stage 1 back. -/
theorem test_stage_two_is_examined :
    let a : Acquire := { acq 5 .shared false (some 7) .second none with groups := [{ resource := 5, mode := .shared, note := .absent }] }
    let s (m : Mode) := put 0 (slotOf (.acquire 5 1 0 (some 7)) .waiting 1 (some a) none)
      (holding [holdOf 5 .shared .held [(0, 9)], holdOf 7 m .held [(1, 9)]] (at3 .active))
    ((s .shared).examine 0).1.table.queue.map QueueRecord.bytes = [[14, 0, 9, 2, 0, 2, 5, 1, 0, 0, 7, 1, 2, 0]] ∧
    (((s .exclusive).examine 0).1.table.slot 0).map Slot.phase = some .releasing := by decide +kernel

theorem test_witness_ReleaseIsTaken :
    let r := hr 0 1 [7, 1, 0xAA]
    let good (s : State) := finds 0 .release r s ∧ proceeds s.station.state ∧ requestOf .release r = .release 7 [0xAA]
    let found (s : State) (e : HoldEntry) := ((7 : Byte).toNat = (7 : Resource).val ∧ s.lease.heldEntry? 7 = some e ∧ e.hasClient 0 = true)
    let faulted := (at3 .active).mapTable (RequestTable.setFault 0 true)
    let two := holding [holdOf 7 .shared .held [(0, 9), (1, 9)]] (at3 .active)
    let one := holding [holdOf 7 .exclusive .held [(0, 9)]] (at3 .active)
    (good faulted ∧ faulted.table.fault 0 = true) ∧
    (good (at3 .active) ∧ (at3 .active).table.fault 0 = false ∧ (at3 .active).lease.heldEntry? 7 = none) ∧
    (good two ∧ two.table.fault 0 = false ∧ found two (holdOf 7 .shared .held [(0, 9), (1, 9)]) ∧
      ((holdOf 7 .shared .held [(0, 9), (1, 9)]).dropClient 0).clients ≠ []) ∧
    (good one ∧ found one (holdOf 7 .exclusive .held [(0, 9)]) ∧ ((holdOf 7 .exclusive .held [(0, 9)]).dropClient 0).clients = []) := by
  decide +kernel

theorem test_witness_LeaseChangesKeepTheRest :
    let l := (holding [holdOf 7 .exclusive .held [(0, 9)]] (record7 { mode := some .exclusive, holders := [3], intents := [], note := .unknown }
      (at3 .active))).lease
    let shared := (record7 { mode := some .shared, holders := [3, 5], intents := [], note := .unknown } (at3 .active)).lease
    ((8 : Resource) ≠ 7) ∧ ((l.ownRelease 3 7 .exclusive []).record 7).holders = [] ∧
      ((shared.ownRelease 3 7 .shared []).record 7).holders ≠ [] ∧
    ([intent5 4 0, { intent5 4 0 with originator := 9 }].map Intent.originator).Pairwise (· < ·) ∧
    ([(1, 9), (4, 2)].map (Prod.fst (α := Client) (β := Byte))).Pairwise (· < ·) ∧
    ((holdOf 7 .shared .held [(1, 9), (4, 2)]).addClient (3, 5)).clients = [(1, 9), (3, 5), (4, 2)] ∧
    (({ ResourceRecord.initial with intents := [intent5 4 0, { intent5 4 0 with originator := 9 }] }).recordIntent
      { intent5 7 0 with mode := .exclusive }).intents.map Intent.sequence = [7, 4] := by decide +kernel

theorem test_witness_CancelActsOnItsTarget :
    let r := hr 0 1 [9]
    let target (p : SlotPhase) (a : Acquire) (s : State) := put 0 (slotOf (.acquire 7 1 1 none) p 1 (some a) none) s
    let a1 := acq 7 .shared true (some 8) .first none
    let a2 := acq 7 .shared true (some 8) .second none
    let good (i : SlotIx) (s : State) := finds i .cancel r s ∧ (proceeds s.station.state ∨ s.station.state = .leaving)
    (good 0 (at3 .active) ∧ ((accepted 0 .cancel r (at3 .active)).table.cancelTarget 0 9) = none ∧ ∀ j, (at3 .active).table.slot j = none) ∧
    (∀ p ∈ [SlotPhase.waiting, .claiming, .settling, .releasing, .posting], ∀ a ∈ [a1, a2],
      good 1 (target p a (at3 .active)) ∧
      (accepted 1 .cancel r (target p a (at3 .active))).table.cancelTarget r.clientNo (r.field 0) = some 0 ∧
      ((accepted 1 .cancel r (target p a (at3 .active))).table.slot 0).map Slot.phase = some p ∧
      ((accepted 1 .cancel r (target p a (at3 .active))).table.slot 0).bind Slot.acquire = some a) ∧
    good 1 (target .claiming a1 (at3 .leaving)) := by decide +kernel

theorem test_witness_GiveBackReturnsTheFirstStage :
    let a := acq 7 .shared true (some 8) .second none
    let sl := slotOf (.acquire 7 1 1 (some 8)) .waiting 1 (some a) none
    let keeps := put 0 sl (holding [holdOf 7 .shared .held [(0, 9), (1, 9)]] (at3 .active))
    let last := put 0 sl (holding [holdOf 7 .shared .held [(0, 9)]] (at3 .active))
    (keeps.table.slot 0 = some sl ∧ sl.acquire = some a) ∧
    (keeps.lease.heldEntry? 7 = some (holdOf 7 .shared .held [(0, 9), (1, 9)]) ∧
      ((holdOf 7 .shared .held [(0, 9), (1, 9)]).dropClient 0).clients ≠ []) ∧
    (last.table.slot 0 = some sl ∧ last.lease.heldEntry? 7 = some (holdOf 7 .shared .held [(0, 9)]) ∧
      (holdOf 7 .shared .held [(0, 9)]).hasClient 0 = true ∧ ((holdOf 7 .shared .held [(0, 9)]).dropClient 0).clients = []) ∧
    ((put 0 sl (at3 .active)).table.slot 0 = some sl ∧ (put 0 sl (at3 .active)).lease.heldEntry? 7 = none) ∧
    (a.stage = .second ∧ (acq 7 .shared true (some 8) .first none).stage = .first) := by decide +kernel

theorem test_witness_QueryAndStatsAnswerAtOnce :
    (finds 0 .query (hr 0 1 [64]) (at3 .halted) ∧ 64 ≤ ((hr 0 1 [64]).field 0).toNat) ∧
    (finds 0 .query (hr 0 1 [63]) (State.initial 3) ∧ ((hr 0 1 [63]).field 0).toNat = (63 : Resource).val) ∧
    finds 0 .stats (hr 0 1 []) (at3 .leaving) := by decide +kernel

theorem test_witness_ClearFaultClearsOneFlag :
    let s := (at3 .leaving).mapTable (RequestTable.setFault 7 true)
    (finds 0 .clearFault (hr 7 1 []) s ∧ s.station.state = .leaving ∧ s.table.fault 7 = true) ∧
    (finds 0 .clearFault (hr 0 1 []) (at3 .active) ∧ proceeds (at3 .active).station.state) := by decide +kernel

theorem test_witness_LeaveEndsRequestsAndHolds :
    let s := waiting7 .shared true (holding [holdOf 7 .exclusive .held [(1, 9)]] (at3 .active))
    (finds 1 .leave (hr 0 1 []) s ∧ proceeds s.station.state ∧ (s.table.slot 0).bind Slot.waitsFor ≠ none) ∧
    (finds 0 .leave (hr 0 1 []) (at3 .joining) ∧ proceeds (at3 .joining).station.state ∧ ∀ j, (at3 .joining).table.slot j = none) ∧
    (at3 .active).lease.holds.find? (fun e => decide (e.phase = .held)) = none ∧
    s.lease.holds.find? (fun e => decide (e.phase = .held)) = some (holdOf 7 .exclusive .held [(1, 9)]) := by decide +kernel

/-- A LEAVE ends two waiting ACQUIREs in acceptance order, whatever their slots' numbers (R150). -/
theorem test_leave_aborts_in_order :
    let w (n : Nat) (c : Client) : Slot := { slotOf (.acquire 7 1 1 none) .waiting n (some (acq 7 .shared true none .first none)) none with client := c }
    (after (.leave (hr 0 1 [])) (put 0 (w 2 4) (put 1 (w 1 6) (holding [holdOf 7 .exclusive .held [(1, 9)]] (at3 .active))))).table.queue.map
      QueueRecord.bytes = [[6, 6, 9, 2, 0x13, 1], [6, 4, 9, 2, 0x13, 1]] := by decide +kernel

theorem test_witness_RestartDropsEverything :
    let s := rolling .circulating true 9 (at3 .halted)
    let t := rolling .queued false 0 (at3 .active)
    (s.inReset = false ∧ formOk .restart (hr 0 1 []) = true ∧ s.station.state ≠ .unconfigured) ∧
    (s.roll.outstanding.any (fun o => o.sent) = true ∧ t.roll.outstanding.all (fun o => !o.sent) = true) ∧
    t.station.state ≠ .unconfigured := by decide +kernel

theorem test_witness_CompletionReadDeliversBytes :
    let at_ (p : Nat) : State := { queued 1 1 (at3 .active) with host := { HostPort.initial with readPos := p } }
    ((at3 .active).inReset = false ∧ (at3 .active).table.queue = []) ∧
    ((at_ 0).table.queue.head? = some (.completion done) ∧ (QueueRecord.completion done).bytes.length = 6) ∧
    (taken .shortest ∧ Strobe.shortest.both = false) ∧
    ((at_ 0).host.readPos + 1 < 6 ∧ (at_ 4).host.readPos + 1 < 6 ∧ 6 ≤ (at_ 5).host.readPos + 1) := by decide +kernel

theorem test_witness_StatusWriteClearsFlags : (at3 .active).inReset = false ∧ taken .shortest ∧ taken { lowNs := 61, both := true } := by
  decide

theorem test_witness_InterruptMaskHoldsTwoEnables :
    (at3 .active).inReset = false ∧ taken .shortest ∧ isPower .linkUp = false ∧ (State.initial 3).inReset = false ∧
    (∀ b y, Instr.linkUp ≠ .intmaskWrite b y) := by
  refine ⟨by decide, by decide, by decide, by decide, ?_⟩
  intro b y h; cases h

theorem test_witness_ProbePortAccesses :
    let may (s : State) := s.station.state ≠ .unconfigured ∧ s.station.state ≠ .halted ∧ s.probe.phase = .idle
    (may (at3 .active) ∧ (at3 .active).inReset = false) ∧ (¬ may (State.initial 3) ∧ (State.initial 3).inReset = false) ∧
    ¬ may (at3 .halted) ∧ ¬ may { at3 .active with probe := { ProbeUnit.initial with phase := .out } } ∧
    (taken .shortest ∧ cycle { lowNs := 59, both := false } (.probe 5) = some (.probe 5 { lowNs := 59, both := false }) ∧
      cycle .shortest (.probe 5) = some (.probe 5) ∧ isRead (.probe 5) = false) ∧
    (cycle { lowNs := 60, both := true } (.completionRead true) = some (.completionRead true { lowNs := 60, both := true }) ∧
      isRead (.completionRead true) = true) := by decide +kernel

theorem test_witness_ReceiverFramesAndCounts :
    let within (n : Nat) : State := { at3 .active with ring := { (at3 .active).ring with receiver := .inFrame (List.replicate n 0) } }
    ((at3 .active).inReset = false ∧ (at3 .active).ring.linkUp = true ∧ (at3 .active).ring.receiver = .hunting) ∧
    ((within 0).ring.linkUp = true ∧ (within 0).ring.receiver = .inFrame []) ∧
    (within 361).ring.receiver = .inFrame (List.replicate 361 0) ∧ FramingCause.growth ≠ .start ∧
    (receives (List.replicate 5 0) (at3 .leaving) ∧ parseFrame (List.replicate 5 0) = none ∧ parseFrame (List.replicate 9 0) = none) ∧
    (∀ c ∈ [LinkChar.idle, .start, .endChar, .data 0, .violation, .silence], arriving { within 0 with rxLine := [c, .idle] } = c) ∧
    (arriving (at3 .active) = .idle ∧ arriving (down3 .active) = .silence ∧ (at3 .active).station.state.onRing = true ∧
      (at3 .halted).station.state.onRing = false ∧ (down3 .active).ring.linkUp = false) ∧
    ((State.characterTime { within 360 with rxLine := [.data 0] }).ring.receiver = .inFrame (List.replicate 361 0) ∧
      (State.characterTime { within 361 with rxLine := [.data 0] }).ring.receiver = .hunting) ∧
    (parseFrame (from5 (.probe 1)).bytes = some (from5 (.probe 1)) ∧ (from5 (.probe 1)).origin = 5 ∧ (from5 (.probe 1)).origin ≠ 3) := by
  decide +kernel

/-- A frame of five bytes, a wrong CRC, an unknown kind, an originator of 16 and a good frame. -/
theorem test_witness_FormatCheckRefuses :
    let sealedBytes (c : List Byte) := c ++ halfBytes (crc16 c)
    let wrong : List Byte := [0x56, 5, 0, 1, 0, 0]
    [0x56, 5, (0 : Byte), 0, 0].length < 6 ∧ wrong.drop (wrong.length - 2) ≠ halfBytes (crc16 (wrong.take (wrong.length - 2))) ∧
    (sealedBytes [0x57, 5, 0, 1]).getD 0 0 ∉ ([0x51, 0x52, 0x53, 0x54, 0x55, 0x56] : List Byte) ∧
    16 ≤ ((sealedBytes [0x56, 16, 0, 1]).getD 1 0).toNat ∧ parseFrame (sealedBytes [0x56, 15, 0, 1]) =
      some { origin := 15, hop := 0, body := .probe 1 } := by decide +kernel

theorem test_witness_HopLimitDiscards :
    let f : Frame := { from5 (.settle (settle7 .granted)) with hop := 15 }
    let full : State := { at3 .active with ring := { (at3 .active).ring with hopCount := 0xFFFF } }
    (receives f.bytes (at3 .active) ∧ f.wf = true ∧ f.origin ≠ (at3 .active).station.address ∧ 15 ≤ f.hop.toNat ∧
      (at3 .active).leavingDone = false ∧ (at3 .active).ring.hopCount ≠ 0xFFFF) ∧
    (receives f.bytes full ∧ full.leavingDone = false ∧ full.ring.hopCount = 0xFFFF) ∧
    (receives f.bytes (brought f.bytes (down3 .broken)) ∧ (brought f.bytes (down3 .broken)).ring.linkUp = false ∧
      (brought f.bytes (down3 .broken)).leavingDone = false) := by decide +kernel

/-- An own frame in the Outbound Queue, so that LEAVING does not end. -/
def leaving3 : State := { at3 .leaving with outbound := [made (at3 .leaving) none (.probe 1)] }

/-- A forwarding queue of n ROSTER frames of 8 bytes. -/
def forwardingOf (n : Nat) (s : State) : State :=
  { s with ring := { s.ring with forwarding := List.replicate n (from1 (.roster { sequence := 0, stations := [1] })) } }

/-- Hop counts 14 pass and 15 do not; a PROBE of 6 bytes fits 8 free bytes and a CLAIM of 9 does not. -/
theorem test_witness_ForwardedFramesPass :
    let full := forwardingOf 511 (at3 .active)
    let probe := from5 (.probe 1)
    let claim := from5 (.claim (claim7 .shared 0))
    let sends (n : Nat) : State := { full with ring := { full.ring with transmitter := .sendingForwarded n } }
    (probe.length ≤ full.ring.freeSpace ∧ full.ring.freeSpace < claim.length ∧ full.ring.freeSpace = 8) ∧
    ((sends 3).ring.transmitter = .sendingForwarded 3 ∧ (sends 3).ring.freeSpace = 10 ∧ full.ring.transmitter = .idle) ∧
    (foreign probe (at3 .active) ∧ foreign probe (at3 .joining) ∧ foreign probe leaving3) ∧
    ¬ foreign { probe with hop := 15 } (at3 .active) ∧
    (foreign claim (at3 .joining) ∧ foreign (from5 (.settle (settle7 .granted))) (at3 .joining) ∧
      foreign (from5 (.release { resource := 7, mode := .exclusive, note := [] })) (at3 .joining)) := by decide +kernel

/-- A frame of each kind, its END before the DOWN, in each state with the link DOWN; bytes of no frame; and one that is not at the head. -/
theorem test_witness_frames_complete_before_the_DOWN :
    let bodies : List Body := [.claim (claim7 .shared 0), .settle (settle7 .granted), .release { resource := 7, mode := .exclusive, note := [1] },
      .roll (roll26 [entryOf 5]), .roster { sequence := 0, stations := [0x05, 0x03] }, .probe 1]
    let s (st : StationState) (bytes : List Byte) : State := { brought bytes (down3 st) with outbound := leaving3.outbound }
    (∀ st ∈ [StationState.joining, .broken, .leaving], ∀ b ∈ bodies,
      foreign (from5 b) (s st (from5 b).bytes) ∧ (s st (from5 b).bytes).ring.linkUp = false ∧
      ¬ foreign (from5 b) (s st [0x51])) ∧
    (∀ b ∈ bodies, applies (s .broken (from5 b).bytes)) ∧
    (receives [0x51] (s .broken [0x51]) ∧ parseFrame [0x51] = none ∧ (after (.formatDiscard [0x51]) (s .broken [0x51])).ring.formatCount = 1) := by
  decide +kernel

/-- A hold objects; of two claims of patience 1 station 3 precedes station 5 and not station 1; a claim of patience 2 precedes it. -/
theorem test_witness_PassingClaimIsJudged :
    let exclusive := claim7 .exclusive 1
    let held := holding [holdOf 7 .exclusive .held [(1, 9)]] (at3 .active)
    let own := claiming [claimOf 7 .exclusive 1 .queued] (at3 .active)
    (foreign (from5 (.claim exclusive)) held ∧ applies held ∧ objects 5 exclusive held) ∧
    (foreign (from5 (.claim exclusive)) own ∧ applies own ∧ objects 5 exclusive own) ∧
    (foreign (from1 (.claim exclusive)) own ∧ yields 1 exclusive own) ∧ yields 5 { exclusive with patience := 2 } own ∧
    (foreign (from5 (.claim exclusive)) (at3 .active) ∧ ¬ objects 5 exclusive (at3 .active) ∧ ¬ yields 5 exclusive (at3 .active)) := by
  simp only [objects, yields, holdObjects, claimMeets, entryPrecedes, and_assoc, exists_some_iff]; decide +kernel

theorem test_witness_PassingSettleAndReleaseAreApplied :
    let held := record7 { mode := some .exclusive, holders := [1], intents := [], note := .absent } (at3 .active)
    let claimed := record7 { ResourceRecord.initial with intents := [intent5 4 9] } (at3 .active)
    let of (f : Frame) (s : State) := foreign f s ∧ applies s
    let grant := settle7 .granted
    let release : Body := .release { resource := 7, mode := .exclusive, note := [1] }
    (of (from5 (.settle grant)) held ∧ ∃ y ∈ (held.lease.record 7).holders, y ∉ ((held.lease.record 7).grant 5 .shared).holders) ∧
    (of (from5 (.settle grant)) claimed ∧ ∀ y ∈ (claimed.lease.record 7).holders, y ∈ ((claimed.lease.record 7).grant 5 .shared).holders) ∧
    (of (from5 (.settle (settle7 .refused))) claimed ∧ (claimed.lease.record 7).intentOf 5 = some (intent5 4 9) ∧ (settle7 .refused).sequence = 4) ∧
    (of (from5 (.settle (settle7 .withdrawn))) held ∧ (held.lease.record 7).intentOf 5 = none) ∧
    (of (from1 release) held ∧ (1 : StationAddr) ∈ (held.lease.record 7).holders) ∧
    (of (from5 release) held ∧ (5 : StationAddr) ∉ (held.lease.record 7).holders) := by decide +kernel

/-- A ROLL that names station 3; 16 entries; a lower roll and a higher roll against an own one; no own roll. -/
theorem test_witness_PassingRollTakesTheOwnEntry :
    let named (b : RollBody) := ∃ e ∈ b.entries, addressOf e.addr = (3 : StationAddr)
    let waits (s : State) := s.roll.inPhase .queued = true ∨ s.roll.inPhase .circulating = true
    let one := roll26 [entryOf 5]
    let fifteen := roll26 (List.replicate 15 (entryOf 5))
    let sixteen := roll26 (List.replicate 16 (entryOf 5))
    let queuedRoll := rolling .queued false 0 (at3 .active)
    let sentRoll := rolling .circulating true 9 (at3 .active)
    (foreign (from5 (.roll (roll26 [entryOf 0x83]))) (at3 .active) ∧ named (roll26 [entryOf 0x83])) ∧
    (foreign (from5 (.roll sixteen)) (at3 .active) ∧ ¬ named sixteen ∧ 16 ≤ sixteen.entries.length) ∧
    (foreign (from1 (.roll fifteen)) queuedRoll ∧ ¬ named fifteen ∧ fifteen.entries.length < 16 ∧ waits queuedRoll ∧
      (from1 (.roll fifteen)).origin < queuedRoll.station.address) ∧
    (foreign (from1 (.roll one)) sentRoll ∧ waits sentRoll) ∧
    (foreign (from5 (.roll one)) sentRoll ∧ ¬ named one ∧ one.entries.length < 16 ∧ sentRoll.station.address < (from5 (.roll one)).origin) ∧
    (foreign (from5 (.roll one)) (at3 .active) ∧ ¬ waits (at3 .active)) := by decide +kernel

/-- An own ROLL that is being sent and is cut, and one that waits behind a PROBE. -/
theorem test_witness_abandoned_rolls :
    let own := made (at3 .active) none (.roll (roll26 [entryOf 3]))
    let probe := made (at3 .active) none (.probe 1)
    let sends (q : List OwnFrame) : State := { rolling .queued false 0 (at3 .active) with
      outbound := q, ring := { (at3 .active).ring with transmitter := .sendingOwn 4 } }
    (foreign (from1 (.roll (roll26 [entryOf 5]))) (sends [own, probe]) ∧ own.frame.body.isRoll = true ∧ probe.frame.body.isRoll = false) ∧
    (sends [own, probe]).abandonRoll.ring.transmitter = .gap (own.frame.length + 2) ∧
    (sends [own, probe]).abandonRoll.outbound = [probe] ∧
    (sends [probe, own]).abandonRoll.ring.transmitter = .sendingOwn 4 := by decide +kernel

/-- A good ROSTER, one that does not name station 3, one that names an address twice. -/
theorem test_witness_PassingRosterReclaims :
    let good (stations : List Byte) := (3 : StationAddr) ∈ (rosterOf stations).map RosterEntry.address ∧
      ((rosterOf stations).map RosterEntry.address).Nodup
    let f (stations : List Byte) := from5 (.roster { sequence := 0, stations := stations })
    let s : State := { at3 .active with roll := { RollUnit.initial with roster := [⟨1, false⟩, ⟨3, false⟩] } }
    (foreign (f [0x85, 0x03]) s ∧ applies s ∧ good [0x85, 0x03] ∧ (1 : StationAddr) ≠ 3 ∧
      (1 : StationAddr) ∈ s.roll.roster.map RosterEntry.address ∧ (1 : StationAddr) ∉ (rosterOf [0x85, 0x03]).map RosterEntry.address ∧
      ({ address := 5, fresh := true } : RosterEntry) ∈ rosterOf [0x85, 0x03]) ∧
    (foreign (f [0x05]) s ∧ ¬ good [0x05]) ∧ ¬ good [0x03, 0x05, 0x85] ∧ (foreign (f [0x03]) (at3 .joining) ∧ ¬ applies (at3 .joining)) := by
  decide +kernel

theorem test_witness_RosterClears :
    let o (p : RollPhase) : OutstandingRoll := { sequence := 2, stamp := 6, phase := p, sent := true, age := 9 }
    let s (p : RollPhase) (st : StationState) := rolling p true 9 (at3 st)
    ((rolling .abandoned true 9 (down3 .joining)).roll.outstanding = some (o .abandoned) ∧
      (rolling .abandoned true 9 (down3 .joining)).ring.linkUp = false) ∧
    (s .queued .active).roll.outstanding = some (o .queued) ∧
    (∀ st ∈ [StationState.active, .leaving, .broken, .resync, .joining],
      (s .abandoned st).roll.outstanding = some (o .abandoned) ∧ (s .abandoned st).station.state = st) ∧
    (s .abandoned .joining).ring.linkUp = true := by decide +kernel

theorem test_witness_OwnClaimIsJudged :
    let s (e : ClaimEntry) (st : StationState) : State :=
      put 0 (slotOf (.acquire 7 1 1 none) .claiming 1 (some (acq 7 .shared true none .first none)) none) (claiming [e] (at3 st))
    let e := claimOf 7 .shared 4 .circulating
    let finds (b : ClaimBody) (e : ClaimEntry) (s : State) := receives (Frame.bytes { origin := 3, hop := 2, body := .claim b }) s ∧ s.claim.claims.find? (fun e =>
      decide (e.phase = .circulating ∧ e.sequence = b.sequence ∧ e.resource = b.resource ∧ e.mode = b.mode)) = some e ∧
      (s.table.slot e.slot).isSome = true
    let b := claim7 .shared 1
    let late := Frame.bytes { origin := 3, hop := 2, body := .claim b }
    finds b e (brought late { s e .broken with ring := (down3 .broken).ring }) ∧
    finds b { e with cancel := true } (s { e with cancel := true } .active) ∧ finds b e (s e .leaving) ∧
    (finds b e (s e .active) ∧ e.cancel = false ∧ b.objection = none ∧ e.yielding = false) ∧
    (finds { b with objection := some 5 } e (s e .active) ∧ finds b { e with yielding := true } (s { e with yielding := true } .active)) := by
  decide +kernel

/-- A report of each kind; the patience at 14 and 15, with the wait flag and without; the lost count at 0. -/
theorem test_witness_reports :
    let a (w : Bool) (n : Nat) : Acquire := { acq 7 .shared w none .first none with patience := n }
    let s (w : Bool) (n : Nat) := put 0 (slotOf (.acquire 7 1 1 none) .claiming 1 (some (a w n)) none) (at3 .active)
    let held (r : Report) (w : Bool) (n : Nat) := (((s w n).report 0 r).table.slot 0).bind Slot.acquire
    ((s true 14).table.slot 0).bind Slot.acquire = some (a true 14) ∧
    ((held .refused true 14).map Acquire.patience = some 15 ∧ (held .refused true 15).map Acquire.patience = some 15 ∧
      (held .refused false 14).map Acquire.patience = some 14 ∧ (held .lostCircuit true 14).map Acquire.patience = some 14) ∧
    ((held .lostCircuit true 0).map Acquire.lost = some 1 ∧ (held .granted true 0).map Acquire.lost = some 0) ∧
    (((s true 0).report 0 .granted).table.slot 0).map Slot.phase = some .settling := by decide +kernel

/-- A QUEUED entry of the same claim, and a CIRCULATING entry of another sequence, do not match. -/
theorem test_witness_StaleReturnChangesNothing :
    let s := claiming [claimOf 7 .shared 4 .queued, claimOf 8 .shared 3 .circulating] (at3 .active)
    receives (Frame.bytes { origin := 3, hop := 2, body := .claim (claim7 .shared 0) }) s ∧ s.leavingDone = false ∧ ∀ e ∈ s.claim.claims, ¬ (e.phase = .circulating ∧ e.sequence = (claim7 .shared 0).sequence ∧
      e.resource = (claim7 .shared 0).resource ∧ e.mode = (claim7 .shared 0).mode) := by decide +kernel

theorem test_witness_OwnRollComesHome :
    let b := roll26 [entryOf 0x83]
    let s (p : RollPhase) (st : StationState) := rolling p true 9 (at3 st)
    let o (p : RollPhase) : OutstandingRoll := { sequence := 2, stamp := 6, phase := p, sent := true, age := 9 }
    let bytes := Frame.bytes { origin := 3, hop := 2, body := .roll b }
    let home (s : State) := receives bytes s ∧ s.leavingDone = false
    let late (p : RollPhase) (st : StationState) := brought bytes (rolling p true 9 (down3 st))
    let retired : State := { at3 .active with roll := { RollUnit.initial with retired := some { sequence := 2, stamp := 6, age := 0 } } }
    (b.wf = true ∧ (o .circulating).sequence = b.sequence ∧ (o .circulating).stamp = b.stamp) ∧
    (∀ st ∈ [StationState.broken, .joining], ∀ p ∈ [RollPhase.circulating, .abandoned],
      home (late p st) ∧ (late p st).station.state = st ∧ (late p st).ring.linkUp = false ∧ (late p st).roll.outstanding = some (o p)) ∧
    ((after (.ownRollReturn 2 b) (late .circulating .broken)).station.state = .broken ∧
      (after (.ownRollReturn 2 b) (late .circulating .broken)).roll.roster = [⟨3, true⟩]) ∧
    (∀ st ∈ [StationState.joining, .active, .resync], ∀ p ∈ [RollPhase.circulating, .abandoned],
      home (s p st) ∧ (s p st).station.state = st ∧ (s p st).roll.outstanding = some (o p)) ∧
    (∀ p ∈ [RollPhase.circulating, .abandoned], home { s p .leaving with outbound := leaving3.outbound }) ∧
    (home retired ∧ retired.roll.outstanding = none ∧ retired.roll.retired = some { sequence := 2, stamp := 6, age := 0 }) ∧
    (home (s .queued .active) ∧ (o .queued).phase = .queued ∧ (s .queued .active).roll.retired = none) := by decide +kernel

/-- Conflicting entries: an EXCLUSIVE hold listed last, SHARED ones after an EXCLUSIVE, SHARED ones alone, none. -/
theorem test_witness_later_entries_prevail :
    let rebuilt (es : List RollEntry) := ((at3 .active).lease.rebuild 3 es).record 7
    let e (a b : Byte) : RollEntry := { addr := a, holds := [b], pendings := [] }
    ((rebuilt [e 5 0x07, e 6 0x87]).holders = [6] ∧ (rebuilt [e 5 0x07, e 6 0x87]).mode = some .exclusive) ∧
    ((rebuilt [e 5 0x87, e 6 0x07, e 4 0x07]).holders = [4, 6] ∧ (rebuilt [e 5 0x87, e 6 0x07, e 4 0x07]).mode = some .shared) ∧
    ((rebuilt [e 6 0x07, e 4 0x07]).holders = [4, 6] ∧ (rebuilt []).holders = []) := by decide +kernel

/-- Entry holds of station 5, EXCLUSIVE on 7 and SHARED on 8, its pending on 9, and a HELD SHARED hold of station 3 on 8. -/
theorem test_witness_RebuildShowsTheRoll :
    let l := (holding [holdOf 8 .shared .held [(0, 9)]] (at3 .active)).lease
    let t := l.rebuild 3 [{ addr := 5, holds := [0x87, 0x08], pendings := [(0x09, 2)] }]
    (t.record 7).holders = [5] ∧ (t.record 8).holders = [3, 5] ∧ (t.record 9).intents = [{ intent5 2 0 with mode := .shared }] ∧
    resourceOf 0x87 = 7 ∧ holdByteMode 0x87 = .exclusive ∧ addressOf 5 ≠ 3 ∧ addressOf 5 ∉ (t.record 9).holders := by decide +kernel

theorem test_witness_DuplicateAddressHalts :
    let s := put 0 (slotOf .leave .waiting 1 none none) (queued 14 2 (holding [holdOf 7 .exclusive .held [(1, 9)]] (at3 .active)))
    let free := put 0 (slotOf .leave .waiting 1 none none) (queued 1 14 (at3 .active))
    (s.inReset = false ∧ (s.table.slot 0).map Slot.phase = some .waiting ∧ (s.duplicateHalt.table.slot 0).map Slot.phase = some .posting ∧
      s.duplicateHalt.host.noticeLost = true ∧ s.table.queue.length = 16) ∧
    (free.inReset = false ∧ free.duplicateHalt.table.slot 0 = none ∧ free.duplicateHalt.table.queue.length = 16) ∧
    ((fullTable (at3 .active)).table.slot 2).map Slot.phase = some .posting := by decide +kernel

theorem test_witness_OwnProbeAndFramesAreStripped :
    let out : State := { at3 .active with probe := { ProbeUnit.initial with phase := .out, sequence := 9 } }
    let own (b : Body) := Frame.bytes { origin := 3, hop := 2, body := b }
    let roster : Body := .roster { sequence := 0, stations := [3] }
    let late (b : Body) : State := brought (own b) { out with station := (down3 .broken).station, ring := (down3 .broken).ring }
    (receives (own (.probe 9)) (late (.probe 9)) ∧ (late (.probe 9)).probe.phase = .out ∧ (late (.probe 9)).ring.linkUp = false ∧
      receives (own roster) (late roster)) ∧
    (receives (own (.probe 9)) out ∧ out.leavingDone = false ∧ out.probe.phase = .out ∧ (9 : Byte) = out.probe.sequence) ∧ (8 : Byte) ≠ out.probe.sequence ∧
    (receives (own roster) (brought (from5 (.probe 1)).bytes (at3 .active)) ∧ (StrippedBody.roster { sequence := 0, stations := [3] }).toBody.wf = true ∧
      (StrippedBody.release { resource := 7, mode := .shared, note := List.replicate 32 0 }).toBody.wf = true ∧
      (StrippedBody.settle (settle7 .granted)).toBody.wf = true) := by decide +kernel

/-- Relief at 7 and 8; free space of exactly the frame and 361 bytes, and one byte less than a frame more. -/
theorem test_witness_TransmitterChoosesTheNextFrame :
    let f := made (at3 .active) none (.probe 1)
    let s (t : Transmitter) (own : Bool) (n relief : Nat) : State :=
      let u := forwardingOf n (at3 .active)
      { u with outbound := if own then [f] else [], ring := { u.ring with transmitter := t, relief := relief } }
    let room (s : State) := s.ring.relief = 8 ∧ f.frame.length + 361 ≤ s.ring.freeSpace
    (∀ t ∈ [Transmitter.idle, .gap 0, .endDue], (s t true 0 0).inReset = false ∧ atBoundary (s t true 0 0).ring.transmitter = true) ∧
    ((s .idle true 0 0).ring.forwarding = [] ∧ (s .idle true 1 8).ring.forwarding ≠ []) ∧
    (room (s .idle true 466 8) ∧ ¬ room (s .idle true 467 8) ∧ ¬ room (s .idle true 1 7)) ∧
    ((s .idle false 1 3).outbound = [] ∧ (s .idle false 0 0).ring.forwarding = []) ∧
    ((s .silent true 1 8).ring.transmitter = .silent ∧ (s (.sendingOwn 9) true 1 8).ring.transmitter = .sendingOwn 9 ∧
      (s (.sendingForwarded 9) true 1 8).ring.transmitter = .sendingForwarded 9) ∧
    ((s .idle false 0 0).outbound = [] ∧ (s .idle true 0 0).ring.transmitter = .idle ∧ (s .idle true 0 0).outbound ≠ [] ∧
      (s (.gap 3) true 0 0).ring.transmitter ≠ .idle) := by decide +kernel

theorem test_witness_SentClaimRollAndProbeRunTheirTimers :
    sends (made (at3 .active) (some 0) (.claim (claim7 .shared 1))) [] (sending (.claim (claim7 .shared 1)) (some 0) (at3 .active)) ∧
    (sends (made (at3 .active) none (.roll (roll26 [entryOf 3]))) []
        (sending (.roll (roll26 [entryOf 3])) none (rolling .queued false 0 (at3 .active))) ∧
      (sending (.roll (roll26 [entryOf 3])) none (rolling .queued false 0 (at3 .active))).roll.outstanding =
        some { sequence := 2, stamp := 6, phase := .queued, sent := false, age := 0 }) ∧
    sends (made (at3 .active) none (.probe 1)) [] (sending (.probe 1) none (at3 .active)) :=
  ⟨sends_sending _ _ _ rfl, ⟨sends_sending _ _ _ rfl, rfl⟩, sends_sending _ _ _ rfl⟩

/-- A slot in SETTLING with ACQUIRE fields. -/
def settling (a : Acquire) (st : StationState) : State :=
  sending (.settle (settle7 .refused)) (some 0) (put 0 (slotOf (.acquire 7 1 1 none) .settling 1 (some a) none) (at3 st))

/-- Each report and stage, in and out of LEAVING; the lost count at and below the retry limit of 2. -/
theorem test_witness_SentSettleLetsTheSlotGoOn :
    (∀ a st, sends (made (at3 st) (some 0) (.settle (settle7 .refused))) [] (settling a st)) ∧
    ((settling (acq 7 .shared true none .first none) .active).table.slot 0).map Slot.phase = some .settling ∧
    (∀ a ∈ [acq 7 .shared true none .first (some .granted), acq 7 .shared true (some 8) .second (some .granted),
        acq 7 .shared true (some 8) .first (some .granted), acq 7 .shared true none .first (some .refused),
        acq 7 .shared false none .first (some .refused), { acq 7 .shared true none .first (some .lostCircuit) with lost := 2 },
        { acq 7 .shared true none .first (some .lostCircuit) with lost := 1 },
        acq 7 .shared true none .first (some (.withdrawn .cancelled)), acq 7 .shared true none .first (some (.withdrawn .leaving))],
      ∀ st ∈ [StationState.active, .leaving], ((settling a st).table.slot 0).bind Slot.acquire = some a ∧
        (settling a st).station.config.map (fun c => c.retry.toNat) = some 2 ∧ (settling a st).station.state = st) := by
  refine ⟨fun a st => sends_sending _ _ _ rfl, by decide +kernel, by decide +kernel⟩

theorem test_witness_SentReleaseRemovesTheHold :
    let body : Body := .release { resource := 7, mode := .shared, note := [] }
    let s (r : Request) := sending body (some 0) (put 0 (slotOf r .releasing 1 none (some done)) (at3 .active))
    (sends (made (at3 .active) (some 0) body) [] (s .leave) ∧ ((s .leave).table.slot 0).map Slot.request = some .leave ∧
      ((s .leave).table.slot 0).map Slot.phase = some .releasing) ∧
    (sends (made (at3 .active) (some 0) body) [] (s (.release 7 [])) ∧ ((s (.release 7 [])).table.slot 0).map Slot.request = some (.release 7 []) ∧
      Request.release 7 [] ≠ .leave) :=
  ⟨⟨sends_sending _ _ _ rfl, rfl, rfl⟩, sends_sending _ _ _ rfl, rfl, by decide⟩

theorem test_witness_EndOfLeavingHalts :
    let ends (s : State) := s.station.state = .leaving ∧ s.outbound = [] ∧ s.claim.claims = [] ∧ s.lease.holds = []
    let s := put 0 (slotOf .leave .waiting 1 none none) (at3 .leaving)
    (ends s ∧ s.inReset = false ∧ s.table.leaveSlot = some 0) ∧ ¬ ends (at3 .active) ∧ ¬ ends leaving3 ∧
    ¬ ends (claiming [claimOf 7 .shared 1 .queued] (at3 .leaving)) ∧ ¬ ends (holding [holdOf 7 .shared .releasing []] (at3 .leaving)) := by
  decide +kernel

theorem test_witness_OriginationQueuesOrHoldsARoll :
    let body : Body := .roster { sequence := 2, stations := [3] }
    let held (b : Bool) (st : StationState) : State := { at3 st with roll := { RollUnit.initial with held := b } }
    let waiting : State := { held true .active with outbound := [made (at3 .active) none body] }
    (∀ b st, sends (made (at3 st) none body) [] (sending body none (held b st))) ∧
    ((∀ f ∈ (at3 .active).outbound, f.frame.body.isRoster = false) ∧ (∃ f ∈ waiting.outbound, f.frame.body.isRoster = true)) ∧
    ((held true .active).mayOriginate = true ∧ (held true .leaving).mayOriginate = false) ∧
    (waiting.inReset = false ∧ waiting.rosterWaits = true ∧ (held true .active).rosterWaits = false ∧ (held false .active).roll.held = false) := by
  refine ⟨fun b st => sends_sending _ _ _ rfl, by decide +kernel, by decide +kernel, by decide +kernel⟩

theorem test_witness_LinkChangesAreTaken :
    (∀ st ∈ [StationState.joining, .broken, .leaving, .unconfigured, .halted],
      (down3 st).inReset = false ∧ (down3 st).ring.linkUp = false ∧ (down3 st).station.state = st ∧ (down3 st).roll.outstanding = none) ∧
    (∀ st ∈ [StationState.joining, .broken], (rolling .circulating true 9 (down3 st)).ring.linkUp = false ∧
      (rolling .circulating true 9 (down3 st)).roll.outstanding ≠ none) ∧
    (∀ st ∈ [StationState.active, .resync, .joining, .leaving],
      (at3 st).inReset = false ∧ (at3 st).ring.linkUp = true ∧ (at3 st).station.state = st) ∧
    (∀ st ∈ [StationState.active, .resync], (down3 st).inReset = false ∧ (down3 st).ring.linkUp = false ∧ (down3 st).station.state = st) ∧
    (let line (c : LinkChar) (s : State) : State := { s with rxLine := [c] }
     let run (n : Option Nat) : State := { down3 .joining with ring := { (down3 .joining).ring with settleTimer := n } }
     (validChar (arriving (line .idle (at3 .active))) ∧ ¬ validChar (arriving (line .violation (at3 .active)))) ∧
     ((run (some 999)).ring.settleTimer = some 999 ∧ (run none).ring.settleTimer = none ∧ (run none).ring.linkUp = false ∧
       (run none).station.state.onRing = true ∧ (at3 .halted).station.state.onRing = false) ∧
     (State.characterTime (line .idle (run (some 999)))).nextDue = some .linkUp ∧
     (State.characterTime (line .idle (run (some 998)))).nextDue ≠ some .linkUp) := by decide +kernel

/-- The circuit timer at 1,999 and 2,000 character times, the intent at 3,999 and 4,000. -/
theorem test_witness_ClaimAndIntentExpire :
    let e := claimOf 7 .shared 4 .circulating
    let due (e : ClaimEntry) : Bool := decide (e.phase = .circulating ∧ e.sequence = 4 ∧ cfg.units.toNat * 100 ≤ e.timer)
    let s (e : ClaimEntry) (st : StationState) := claiming [e] (at3 st)
    let intents (n : Nat) := record7 { ResourceRecord.initial with intents := [intent5 4 n] } (at3 .active)
    ((s e .active).inReset = false ∧ (s e .active).station.config = some cfg ∧ (s e .active).claim.claims.find? due = some e) ∧
    ((s { e with cancel := true } .active).claim.claims.find? due = some { e with cancel := true } ∧
      (s e .leaving).claim.claims.find? due = some e) ∧
    (∀ x ∈ (s { e with timer := 1999 } .active).claim.claims, ¬ due x = true) ∧
    ((intents 4000).station.config = some cfg ∧ ((intents 4000).lease.record 7).intentOf 5 = some (intent5 4 4000) ∧
      2 * (cfg.units.toNat * 100) ≤ 4000) ∧
    (((intents 3999).lease.record 7).intentOf 5 = some (intent5 4 3999) ∧ 3999 < 2 * (cfg.units.toNat * 100)) := by decide +kernel

/-- The roll timer at 105,999 and 106,000 character times, the roll's age at 5,999 and 6,000. -/
theorem test_witness_RollTimersOriginate :
    let period := (cfg.interval.toNat * 1000 + (3 : StationAddr).val * (cfg.units.toNat * 10)) * 10
    let s (p : RollPhase) (n : Nat) (st : StationState) := rolling p true n (at3 st)
    (period = 106000 ∧ (at3 .active).station.config = some cfg ∧ (at3 .active).station.state = .active ∧ (at3 .active).roll.outstanding = none) ∧
    (∀ st ∈ [StationState.active, .resync, .joining, .leaving], ∀ p ∈ [RollPhase.circulating, .abandoned],
      (s p 6000 st).roll.outstanding = some { sequence := 2, stamp := 6, phase := p, sent := true, age := 6000 } ∧
      (s p 6000 st).station.state = st ∧ (s p 6000 st).inReset = false ∧ (s p 6000 st).ring.linkUp = true) ∧
    (3 * (cfg.units.toNat * 100) ≤ 6000 ∧ ¬ 3 * (cfg.units.toNat * 100) ≤ 5999) := by decide +kernel

theorem test_witness_RetiredRollAndProbeTimeOut :
    let retired (n : Nat) : State := { at3 .active with roll := { RollUnit.initial with retired := some { sequence := 2, stamp := 6, age := n } } }
    let out (n : Nat) : State := { at3 .active with probe := { ProbeUnit.initial with phase := .out, timer := n } }
    ((retired 6000).inReset = false ∧ (retired 6000).station.config = some cfg ∧
      (retired 6000).roll.retired = some { sequence := 2, stamp := 6, age := 6000 } ∧ 3 * (cfg.units.toNat * 100) ≤ 6000) ∧
    ((retired 5999).roll.retired = some { sequence := 2, stamp := 6, age := 5999 } ∧ 5999 < 3 * (cfg.units.toNat * 100)) ∧
    ((out 65535).probe.phase = .out ∧ 65535 ≤ (out 65535).probe.timer) ∧ (out 65534).probe.timer < 65535 ∧
    (at3 .active).probe.phase ≠ .out := by decide +kernel

theorem test_witness_ConflictAndPrecedence :
    let s := claiming [claimOf 7 .exclusive 1 .queued] (at3 .active)
    s.lease.holdConflicts 7 .shared = false ∧ claimMeets (claimOf 7 .exclusive 1 .queued) (claim7 .shared 1) s ∧
    (holding [holdOf 7 .shared .held [(0, 9)]] (at3 .active)).lease.hold? 7 = some (holdOf 7 .shared .held [(0, 9)]) :=
  ⟨by decide +kernel, ⟨by decide +kernel, Or.inl rfl⟩, by decide +kernel⟩

theorem test_witness_FramesReadBackFromTheirBytes :
    (from5 (.release { resource := 0, mode := .exclusive, note := List.replicate 32 0 })).wf = true ∧
    parseFrame (from5 (.probe 1)).bytes = some (from5 (.probe 1)) := by decide +kernel

/-! The laws hold in states that use them, where a step answers a next state. -/

theorem test_witness_StepKeepsReplicaLawful :
    let s := record7 { mode := some .exclusive, holders := [1], intents := [intent5 4 9], note := .absent } (at3 .active)
    s.replicaLawful ∧ step s = .next s.idleStep := ⟨by decide +kernel, rfl⟩

/-- Twelve holds and four claims, all on different resources. -/
theorem test_witness_StepKeepsHoldsLawful :
    let holds := (List.range 12).map (fun k => holdOf (Fin.ofNat 64 k) .exclusive .held [(1, 9)])
    let claims := (List.range 4).map (fun k => claimOf (Fin.ofNat 64 (20 + k)) .shared 1 .queued)
    (holding holds (claiming claims (at3 .active))).holdsLawful ∧
      step (at3 .active) = .next (State.idleStep (at3 .active)) := ⟨by decide +kernel, rfl⟩

theorem test_witness_StepKeepsQueueAndReadPosition :
    let s : State := { queued 14 2 (at3 .active) with host := { HostPort.initial with readPos := 5 } }
    s.queueWithinLimits ∧ s.readPositionWithin ∧ step s = .next s.idleStep := ⟨by decide +kernel, by decide +kernel, rfl⟩

/-- A full forwarding queue, the relief counter at 8, a buffer of 40 bytes. -/
theorem test_witness_StepKeepsBuffersWithinLimits :
    let u := forwardingOf 512 (at3 .active)
    let s : State := { u with
      ring := { u.ring with relief := 8 }, host := { HostPort.initial with assembly := .counting (List.replicate 40 0) 255 254 } }
    s.forwardingWithinLimits ∧ s.host.assembly.within = true ∧ step s = .next s.idleStep := ⟨by decide +kernel, by decide, rfl⟩

/-- A CLAIM, a SETTLE and a RELEASE of three slots, a ROLL and a PROBE in the Outbound Queue, and a CIRCULATING claim. -/
theorem test_witness_StepKeepsTheOutboundLaw :
    let request : Request := .acquire 7 1 1 none
    let a := acq 7 .shared true none .first none
    let s : State := (put 0 (slotOf request .claiming 1 (some a) none) (put 1 (slotOf request .settling 2 (some a) none)
      (put 2 (slotOf .leave .releasing 3 none none) (put 3 (slotOf request .claiming 4 (some a) none)
        (put 4 (slotOf .stats .posting 5 none (some done)) (rolling .queued false 0 (at3 .active)))))))
    let t : State := { claiming [claimOf 7 .shared 4 .queued, { claimOf 8 .shared 5 .circulating with slot := 3 }] s with
      outbound := [made s (some 0) (.claim (claim7 .shared 1)), made s (some 1) (.settle (settle7 .refused)),
        made s (some 2) (.release { resource := 9, mode := .shared, note := [] }), made s none (.roll (roll26 [entryOf 3])),
        made s none (.probe 1)]
      table := { s.table with posting := [4] }
      probe := { ProbeUnit.initial with phase := .queued } }
    t.holdsLawful ∧ t.outboundLawful ∧ step t = .next t.idleStep ∧ (at3 .active).outboundLawful :=
  ⟨by decide +kernel, by decide +kernel, rfl, by decide +kernel⟩

theorem test_witness_StepKeepsAcceptanceNumbers :
    (twoWait (at3 .active)).table.numbered ∧ (fullTable (at3 .active)).table.numbered ∧
      step (twoWait (at3 .active)) = .next (State.idleStep (twoWait (at3 .active))) := ⟨by decide +kernel, by decide +kernel, rfl⟩

theorem test_witness_StepKeepsTheEndOfLeavingTaken : leaving3.leavingDone = false ∧ step leaving3 = .next leaving3.idleStep :=
  ⟨by decide +kernel, rfl⟩

theorem test_witness_CommandsKeepAddressAndConfiguration :
    let c : Instr := .configure (hr 0 1 [10, 0, 20, 2])
    exec c (State.initial 3) = .next (after c (State.initial 3)) ∧ isPower c = false ∧
      (after c (State.initial 3)).station.config ≠ (State.initial 3).station.config :=
  ⟨rfl, rfl, by decide +kernel⟩

end Sys2Proof.Tests
end

namespace Sys2Proof.LeaseProofs
open Sys2Proof.Machine Sys2Proof.Statement

/-! ### The state right after reset -/

@[simp] theorem record_initial (k : Resource) : LeaseTable.initial.record k = ResourceRecord.initial := by
  simp [LeaseTable.initial, LeaseTable.record]

@[simp] theorem slot_initial (i : SlotIx) : RequestTable.initial.slot i = none := by
  simp [RequestTable.initial, RequestTable.slot]

@[simp] theorem fault_initial (c : Client) : RequestTable.initial.fault c = false := by
  simp [RequestTable.initial, RequestTable.fault]

/-- Settles O3: every block is read off its initial value. -/
theorem resetHoldsInitialValues : Obligations.ResetHoldsInitialValues := by
  have hrec : ∀ k, State.reset.lease.record k = { mode := none, holders := [], intents := [], note := .unknown } := record_initial
  have hslot : ∀ i, State.reset.table.slot i = none := slot_initial
  have hfault : ∀ c, State.reset.table.fault c = false := fault_initial
  unfold Obligations.ResetHoldsInitialValues
  refine ⟨rfl, rfl, rfl, hrec, rfl, rfl, hslot, hfault, rfl, rfl, rfl, rfl, rfl, rfl, rfl, rfl, rfl, rfl, rfl, rfl, rfl, rfl, rfl,
    rfl, rfl, rfl, rfl, rfl, rfl, rfl, rfl, rfl, rfl, rfl, rfl, rfl⟩

/-- No slot is occupied in a table all of whose slots are free. -/
theorem occupied_initial : RequestTable.initial.occupied = 0 := by simp [RequestTable.occupied]

/-- With no slot occupied the acceptance numbers 1 to 0 are all there are. -/
theorem numbered_initial : RequestTable.initial.numbered := by
  intro n
  simp [occupied_initial]

/-- Settles O53, law by law: the queues and lists are empty and the records are FREE. -/
theorem resetIsLawful : Obligations.ResetIsLawful := by
  have hreplica : State.reset.replicaLawful := LeaseTable.Lawful.initial
  have hholds : State.reset.holdsLawful := by
    simp [State.holdsLawful, State.engaged, State.reset, State.initial, LeaseTable.initial, ClaimEngine.initial]
  have houtbound : State.reset.outboundLawful := by
    simp [State.outboundLawful, State.outboundWithinPlaces, State.makersInStep, State.rosterWaits, RollUnit.inPhase, State.reset,
      State.initial, ClaimEngine.initial, RequestTable.initial, RollUnit.initial, ProbeUnit.initial]
  have hqueue : State.reset.queueWithinLimits := by
    simp [State.queueWithinLimits, RequestTable.completions, State.reset, State.initial, RequestTable.initial]
  have hread : State.reset.readPositionWithin := by
    simp [State.readPositionWithin, State.reset, State.initial, RequestTable.initial, HostPort.initial]
  have hforward : State.reset.forwardingWithinLimits := by
    simp [State.forwardingWithinLimits, RingPort.queuedBytes, RingPort.forwardingInProgress, State.reset, State.initial, RingPort.initial]
  exact ⟨hreplica, hholds, houtbound, hqueue, hread, hforward, numbered_initial, rfl, rfl⟩

/-! ### The laws of the replica -/

/-- Each elementary change of a step keeps every record within R1 and R2. -/
theorem replicaLawful_kept : Kept State.replicaLawful where
  other := fun s t hl _ _ _ h k => by rw [hl]; exact h k
  finish := fun _ _ _ _ h => h
  slot := fun _ _ _ _ h => h
  finishKept := fun _ _ h => h
  postNext := fun _ h => h
  notice := fun n s h k => by rw [State.raiseNotice_lease]; exact h k
  occupy := fun _ _ _ _ _ _ h => h
  fault := fun _ _ _ h => h
  read := fun _ _ _ _ _ h => h
  drop := fun _ h => h
  replica := fun _ _ _ hg h => hg h
  join := fun _ _ _ _ _ _ _ h => h
  leave := fun _ _ _ _ _ _ _ h => h
  release := fun e n _ _ s _ h =>
    LeaseTable.Lawful.modify (l := s.lease.modifyHold e.resource HoldEntry.toReleasing) h _ _ (ResourceRecord.lawful_release _ _ _)
  remove := fun _ _ h => h
  issue := fun _ _ _ _ h => h
  claims := fun _ _ _ _ h => h
  unclaim := fun _ _ h => h
  grant := fun _ _ _ s _ h => LeaseTable.Lawful.modify (l := s.lease) h _ _ (ResourceRecord.lawful_grant _ _)
  halt := fun s h => LeaseTable.Lawful.mapRecords (l := s.lease) _ (fun k => ResourceRecord.lawful_dropHolder _ _ (h k))
  restart := fun s hl _ _ _ k => by rw [hl]; exact LeaseTable.Lawful.initial k

/-- A grant leaves no intent of the new holder. -/
theorem intentOf_grant (r : ResourceRecord) (x : StationAddr) (m : Mode) : (r.grant x m).intentOf x = none := by
  simp [ResourceRecord.intentOf, ResourceRecord.grant, ResourceRecord.dropIntent]

/-- A recorded intent leaves its originator no holder. -/
theorem originator_not_holder_recordIntent (r : ResourceRecord) (i : Intent) : i.originator ∉ (r.recordIntent i).holders := by
  simp [ResourceRecord.recordIntent, ResourceRecord.dropHolder]

/-- Settles O54: the law of a record is kept by each elementary change, hence by every step. -/
theorem stepKeepsReplicaLawful : Obligations.StepKeepsReplicaLawful :=
  ⟨replicaLawful_kept.step, intentOf_grant, originator_not_holder_recordIntent⟩

/-! ### The laws of holds and claims -/

theorem entries_lawful {s : State} (h : s.holdsLawful) : ∀ e ∈ s.lease.holds, e.lawful := by
  obtain ⟨-, -, -, he⟩ := h
  exact he

/-- The limits and the distinctness hang on the resources of holds and claims alone. -/
theorem holdsLawful_of_resources {s t : State} (h : s.holdsLawful)
    (hh : (t.lease.holds.map HoldEntry.resource).Sublist (s.lease.holds.map HoldEntry.resource))
    (hc : (t.claim.claims.map ClaimEntry.resource).Sublist (s.claim.claims.map ClaimEntry.resource))
    (he : ∀ e ∈ t.lease.holds, e.lawful) : t.holdsLawful := by
  obtain ⟨hclaims, hall, hnodup, -⟩ := h
  have h1 : t.lease.holds.length ≤ s.lease.holds.length := by simpa using hh.length_le
  have h2 : t.claim.claims.length ≤ s.claim.claims.length := by simpa using hc.length_le
  exact ⟨Nat.le_trans h2 hclaims, Nat.le_trans (Nat.add_le_add h1 h2) hall, hnodup.sublist (hh.append hc), he⟩

/-- A change that leaves holds and claims leaves their laws. -/
theorem holdsLawful_congr {s t : State} (h : s.holdsLawful) (hh : t.lease.holds = s.lease.holds)
    (hc : t.claim.claims = s.claim.claims) : t.holdsLawful :=
  holdsLawful_of_resources h (hh ▸ List.Sublist.refl _) (hc ▸ List.Sublist.refl _) (hh ▸ entries_lawful h)

/-- Elements of a list that a map keeps apart are one where their images are. -/
theorem eq_of_nodup_map {α β : Type} {f : α → β} {l : List α} (h : (l.map f).Nodup) {a b : α} (ha : a ∈ l) (hb : b ∈ l)
    (hf : f a = f b) : a = b := by
  induction l with
  | nil => cases ha
  | cons x l ih =>
    obtain ⟨hx, hl⟩ := List.nodup_cons.1 h
    rcases List.mem_cons.1 ha with hax | hal
    · rcases List.mem_cons.1 hb with hbx | hbl
      · rw [hax, hbx]
      · exact absurd (hax ▸ hf ▸ List.mem_map_of_mem hbl) hx
    · rcases List.mem_cons.1 hb with hbx | hbl
      · exact absurd (hbx ▸ hf ▸ List.mem_map_of_mem hal) hx
      · exact ih hl hal hbl

/-- Two entries of the local hold list on one resource are one entry. -/
theorem hold_unique {s : State} (h : s.holdsLawful) {d e : HoldEntry} (hd : d ∈ s.lease.holds) (he : e ∈ s.lease.holds)
    (hr : d.resource = e.resource) : d = e :=
  eq_of_nodup_map (List.nodup_append.1 h.2.2.1).1 hd he hr

/-- The entry for a resource changes within its law, its resource apart. -/
theorem holdsLawful_modifyHold {s : State} (h : s.holdsLawful) (k : Resource) (f : HoldEntry → HoldEntry)
    (hr : ∀ e, (f e).resource = e.resource) (hf : ∀ e ∈ s.lease.holds, e.resource = k → e.lawful → (f e).lawful) :
    (s.mapLease (fun l => l.modifyHold k f)).holdsLawful := by
  refine holdsLawful_of_resources h ?_ (List.Sublist.refl _) ?_
  · exact (Served.map_modifyHold k f hr s.lease.holds).symm ▸ List.Sublist.refl _
  · intro d hd
    obtain ⟨e, he, rfl⟩ := List.mem_map.1 hd
    split
    · rename_i hk; exact hf e he hk (entries_lawful h e he)
    · exact entries_lawful h e he

theorem insertClient_ne_nil (p : Client × Byte) (l : List (Client × Byte)) : insertClient p l ≠ [] := by
  cases l with
  | nil => simp [insertClient]
  | cons q qs => simp only [insertClient]; split <;> (try split) <;> simp

theorem mem_insertClient_imp (p q : Client × Byte) (l : List (Client × Byte)) (h : q ∈ insertClient p l) : q = p ∨ q ∈ l := by
  induction l with
  | nil => simpa [insertClient] using h
  | cons a l ih =>
    simp only [insertClient] at h
    split at h
    · simpa using h
    · split at h
      · rcases List.mem_cons.1 h with rfl | h
        · exact .inl rfl
        · exact .inr (List.mem_cons_of_mem _ h)
      · rcases List.mem_cons.1 h with rfl | h
        · exact .inr List.mem_cons_self
        · exact (ih h).imp id (List.mem_cons_of_mem _)

/-- A client joins in its place (log 28). -/
theorem sorted_insertClient (p : Client × Byte) (l : List (Client × Byte)) (h : (l.map Prod.fst).Pairwise (· < ·)) :
    ((insertClient p l).map Prod.fst).Pairwise (· < ·) := by
  induction l with
  | nil => simp [insertClient]
  | cons a l ih =>
    rw [List.map_cons, List.pairwise_cons] at h
    obtain ⟨ha, hl⟩ := h
    simp only [insertClient]; split
    · rename_i hp
      refine List.pairwise_cons.2 ⟨fun y hy => ?_, List.pairwise_cons.2 ⟨ha, hl⟩⟩
      rcases List.mem_cons.1 hy with rfl | hy
      · exact hp
      · exact Fin.lt_trans hp (ha y hy)
    · split
      · rename_i hp
        rw [List.map_cons, hp]; exact List.pairwise_cons.2 ⟨ha, hl⟩
      · rename_i h1 h2
        refine List.pairwise_cons.2 ⟨fun y hy => ?_, ih hl⟩
        obtain ⟨q, hq, rfl⟩ := List.mem_map.1 hy
        rcases mem_insertClient_imp _ _ _ hq with rfl | hq
        · exact (Fin.lt_or_lt_of_ne h2).resolve_left h1
        · exact ha _ (List.mem_map_of_mem hq)

/-- A SHARED hold in HELD phase takes a further client (R7). -/
theorem lawful_addClient (p : Client × Byte) (e : HoldEntry) (h : e.lawful) (hp : e.phase = .held) (hm : e.mode = .shared) :
    (e.addClient p).lawful := by
  obtain ⟨-, -, -, hsorted⟩ := h
  refine ⟨fun _ hx => ?_, fun _ => insertClient_ne_nil _ _, fun hx => ?_, sorted_insertClient p _ hsorted⟩
  · exact absurd (hm.symm.trans hx) (by decide)
  · exact absurd (hp.symm.trans hx) (by decide)

/-- A client leaves a hold that others keep (R8). -/
theorem lawful_dropClient (c : Client) (e : HoldEntry) (h : e.lawful) (hp : e.phase = .held) (hn : (e.dropClient c).clients ≠ []) :
    (e.dropClient c).lawful := by
  obtain ⟨hone, -, -, hsorted⟩ := h
  refine ⟨fun hh hx => ?_, fun _ => hn, fun hx => ?_, hsorted.sublist (List.filter_sublist.map _)⟩
  · have h1 : e.clients.length = 1 := hone hh hx
    have h2 : (e.dropClient c).clients.length ≤ e.clients.length := List.length_filter_le _ _
    have h3 := List.length_pos_iff.2 hn
    omega
  · exact absurd (hp.symm.trans hx) (by decide)

theorem lawful_toReleasing (e : HoldEntry) : e.toReleasing.lawful := by simp [HoldEntry.toReleasing, HoldEntry.lawful]

/-- A claim is arbitrated only on a resource with neither a hold nor a claim, and below both limits (R87, R90). -/
theorem arbitrate_claim {i : SlotIx} {a : Acquire} {s : State} (h : s.arbitrate i a = .claim) :
    s.lease.hold? a.current = none ∧ s.claim.claimOn a.current = none ∧
      s.lease.holds.length + s.claim.claims.length < Config.holdLimit ∧ s.claim.claims.length < Config.claimLimit := by
  unfold State.arbitrate at h
  split at h
  · cases h
  split at h
  · cases h
  split at h
  · cases h
  split at h
  case isFalse => cases h
  rename_i hjoin hwait hfull hclaims
  simp only [State.mustWait, Bool.or_eq_true, not_or, Bool.not_eq_true] at hwait
  obtain ⟨⟨⟨hhold, hearlier⟩, hclaim⟩, -⟩ := hwait
  refine ⟨?_, by simpa using hclaim, Nat.lt_of_not_le hfull, hclaims.2⟩
  cases he : s.lease.hold? a.current with
  | none => rfl
  | some e =>
    rw [he] at hhold
    cases hp : e.phase <;> cases hm : e.mode <;> cases ha : a.mode <;>
      simp_all [State.canJoin, conflicting]

/-- A claim issued stands on a resource of its own, within the limits. -/
theorem holdsLawful_issueClaim {s : State} (h : s.holdsLawful) (i : SlotIx) (a : Acquire) (ha : s.arbitrate i a = .claim) :
    (s.issueClaim i a).holdsLawful := by
  obtain ⟨hhold, hclaim, hfull, hfour⟩ := arbitrate_claim ha
  obtain ⟨-, -, hnodup, hlawful⟩ := h
  have hnew : a.current ∉ s.engaged := by
    simp only [LeaseTable.hold?, ClaimEngine.claimOn, List.find?_eq_none, decide_eq_true_eq] at hhold hclaim
    simp only [State.engaged, List.mem_append, List.mem_map, not_or, not_exists, not_and]
    exact ⟨hhold, hclaim⟩
  have hengaged : (s.issueClaim i a).engaged = s.engaged ++ [a.current] := by
    simp [State.engaged, State.issueClaim, State.enqueue]
  have hclaims : (s.issueClaim i a).claim.claims.length = s.claim.claims.length + 1 := by
    simp only [State.issueClaim, List.length_append, List.length_singleton]
  refine ⟨?_, ?_, ?_, hlawful⟩
  · rw [hclaims]; exact hfour
  · rw [hclaims]; exact hfull
  · rw [hengaged]
    exact List.nodup_append.2 ⟨hnodup, List.nodup_cons.2 ⟨List.not_mem_nil, List.nodup_nil⟩, fun x hx y hy => by
      rw [List.mem_singleton.1 hy]; exact fun e => hnew (e ▸ hx)⟩

/-- A claim that leaves the list as its hold joins the other keeps its place among the resources engaged (R48). -/
theorem holdsLawful_grant {s : State} (h : s.holdsLawful) (p : ClaimEntry → Bool) (e : ClaimEntry) (x : Client × Byte)
    (he : s.claim.claims.find? p = some e) :
    State.holdsLawful { s with
      claim := s.claim.removeWhere p, lease := s.lease.ownGrant s.station.address e.resource e.mode x } := by
  obtain ⟨hfour, hfull, hnodup, hlawful⟩ := h
  obtain ⟨hpe, as, bs, hsplit, has⟩ := List.find?_eq_some_iff_append.1 he
  have herase : (s.claim.removeWhere p).claims = as ++ bs := by
    rw [ClaimEngine.removeWhere, hsplit, List.eraseP_append_right _ (fun a ha => by simpa using has a ha), List.eraseP_cons_of_pos hpe]
  have hlen : s.claim.claims.length = as.length + bs.length + 1 := by simp [hsplit, Nat.add_assoc]
  refine ⟨?_, ?_, ?_, ?_⟩
  · simp only [herase, List.length_append]; omega
  · simp only [herase, LeaseTable.ownGrant, List.length_append, List.length_singleton, LeaseTable.holds_modify]
    omega
  · refine (List.Perm.nodup_iff ?_).1 hnodup
    simp only [State.engaged, herase, LeaseTable.ownGrant, LeaseTable.holds_modify, hsplit, List.map_append,
      List.map_cons, List.map_nil, List.append_assoc]
    exact List.Perm.append_left _ List.perm_middle
  · intro d hd
    rcases List.mem_append.1 hd with hd | hd
    · exact hlawful d hd
    · rw [List.mem_singleton.1 hd]; simp [HoldEntry.lawful]

/-- Each elementary change of a step keeps holds and claims within R5, R31 and R90. -/
theorem holdsLawful_kept : Kept State.holdsLawful where
  other := fun _ _ hl hc _ _ h => holdsLawful_congr h (by rw [hl]) (by rw [hc])
  finish := fun _ _ _ _ h => h
  slot := fun _ _ _ _ h => h
  finishKept := fun _ _ h => h
  postNext := fun _ h => h
  notice := fun n s h => holdsLawful_congr h (by rw [State.raiseNotice_lease]) (by rw [State.raiseNotice_claim])
  occupy := fun _ _ _ _ _ _ h => h
  fault := fun _ _ _ h => h
  read := fun _ _ _ _ _ h => h
  drop := fun _ h => h
  replica := fun _ _ hh _ h => holdsLawful_congr h hh rfl
  join := fun k p e s he hp hm h => by
    obtain ⟨hr, hmem⟩ := LeaseTable.hold?_resource k s.lease e he
    refine holdsLawful_modifyHold h k _ (fun _ => rfl) (fun d hd hdk hl => ?_)
    obtain rfl := hold_unique h hd hmem (hdk.trans hr.symm)
    exact lawful_addClient p d hl hp hm
  leave := fun k c e s he hn _ h => by
    obtain ⟨hr, hp, hmem⟩ := LeaseTable.heldEntry?_spec k s.lease e he
    refine holdsLawful_modifyHold h k _ (fun _ => rfl) (fun d hd hdk hl => ?_)
    obtain rfl := hold_unique h hd hmem (hdk.trans hr.symm)
    exact lawful_dropClient c d hl hp hn
  release := fun e _ _ _ s _ h =>
    holdsLawful_congr (holdsLawful_modifyHold h e.resource HoldEntry.toReleasing (fun _ => rfl) (fun d _ _ _ => lawful_toReleasing d))
      rfl rfl
  remove := fun _ s h => holdsLawful_of_resources h (List.filter_sublist.map _) (List.Sublist.refl _)
    (fun e he => entries_lawful h e (List.mem_filter.1 he).1)
  issue := fun i a _ ha h => holdsLawful_issueClaim h i a ha
  claims := fun p f s hf h => by
    refine holdsLawful_of_resources h (List.Sublist.refl _) ?_ (entries_lawful (s := s) h)
    have hsame : ∀ e : ClaimEntry, (if p e then f e else e).resource = e.resource := fun e => by split <;> simp [hf]
    simp [ClaimEngine.modifyWhere, Function.comp_def, hsame]
  unclaim := fun p s h => holdsLawful_of_resources h (List.Sublist.refl _) (List.eraseP_sublist.map _) (entries_lawful (s := s) h)
  grant := fun p e x _ he h => holdsLawful_grant h p e x he
  halt := fun s _ => by simp [State.holdsLawful, State.engaged, LeaseTable.halt]
  restart := fun s hl hc _ _ => by simp [State.holdsLawful, State.engaged, hl, hc, LeaseTable.initial]

/-- Settles O55: the laws of holds and claims are kept by each elementary change, hence by every step. -/
theorem stepKeepsHoldsLawful : Obligations.StepKeepsHoldsLawful := holdsLawful_kept.step

end Sys2Proof.LeaseProofs

/-! ## Local arbitration and the replica's changes (O12, O16) -/

namespace Sys2Proof.LeaseProofs
open Sys2Proof.Machine Sys2Proof.Statement

/-! ### The conditions of R87 -/

theorem seeks_iff (a : Acquire) (k : Resource) : seeks a k ↔ a.current = k := by
  unfold seeks Acquire.current
  cases a.stage <;> simp

theorem conflicting_iff (a b : Mode) : conflicting a b = true ↔ a = .exclusive ∨ b = .exclusive := by
  simp [conflicting]

theorem mode_ne_exclusive (m : Mode) : m ≠ .exclusive ↔ m = .shared := by cases m <;> simp

theorem stands_iff (p : SlotPhase) : p.stands = true ↔ p = .waiting ∨ p = .claiming ∨ p = .settling := by
  cases p <;> simp [SlotPhase.stands]

/-- A slot stands for a resource in WAITING, CLAIMING or SETTLING, for its current one (R86). -/
theorem standsFor_iff (x : Slot) (k : Resource) : x.standsFor = some k ↔
    ∃ b, x.acquire = some b ∧ (x.phase = .waiting ∨ x.phase = .claiming ∨ x.phase = .settling) ∧ b.current = k := by
  unfold Slot.standsFor
  cases hx : x.acquire with
  | none => simp
  | some b => simp [stands_iff]

theorem earlierStands_iff (i : SlotIx) (k : Resource) (s : State) : s.table.earlierStands i k = true ↔ standsEarlier i k s := by
  unfold RequestTable.earlierStands standsEarlier
  cases hi : s.table.slot i with
  | none => simp
  | some sl =>
    simp only [List.any_eq_true, List.mem_finRange, true_and]
    constructor
    · rintro ⟨j, hj⟩
      split at hj
      · cases hj
      · rename_i x hx
        simp only [Bool.and_eq_true, decide_eq_true_eq, standsFor_iff] at hj
        obtain ⟨hlt, b, hb, hp, hk⟩ := hj
        exact ⟨sl, j, x, b, rfl, hx, hlt, hb, hp, (seeks_iff b k).2 hk⟩
    · rintro ⟨_, j, x, b, ⟨⟩, hx, hlt, hb, hp, hk⟩
      refine ⟨j, ?_⟩
      rw [hx]
      simpa [standsFor_iff] using ⟨hlt, b, hb, hp, (seeks_iff b k).1 hk⟩

theorem showsConflict_iff (k : Resource) (m : Mode) (s : State) :
    (s.lease.record k).showsConflict s.station.address m = true ↔ conflictShown k m s := by
  simp [ResourceRecord.showsConflict, conflictShown, conflicting_iff]
  grind

/-- The condition of step 1 of R87. -/
theorem canJoin_iff (i : SlotIx) (a : Acquire) (s : State) : s.canJoin i a = true ↔
    (∃ e, s.lease.hold? a.current = some e ∧ e.phase = .held ∧ e.mode = .shared) ∧ a.mode = .shared ∧
      ¬ standsEarlier i a.current s := by
  rw [← earlierStands_iff]
  unfold State.canJoin
  cases s.lease.hold? a.current with
  | none => simp
  | some e => simp [and_assoc]

/-- The condition of step 2 of R87. -/
theorem mustWait_iff (i : SlotIx) (a : Acquire) (s : State) : s.mustWait i a = true ↔
    (∃ e, s.lease.hold? a.current = some e ∧ (e.phase = .releasing ∨ e.mode = .exclusive ∨ a.mode = .exclusive)) ∨
      standsEarlier i a.current s ∨ (∃ e, s.claim.claimOn a.current = some e) ∨ conflictShown a.current a.mode s := by
  rw [← earlierStands_iff, ← showsConflict_iff, ← Option.isSome_iff_exists]
  unfold State.mustWait
  cases s.lease.hold? a.current with
  | none => simp [or_assoc]
  | some e => simp [or_assoc, conflicting_iff]

/-- Settles O12: the table of R87 with each condition written out. -/
theorem arbitrationFollowsItsTable : Obligations.ArbitrationFollowsItsTable := by
  intro s i a k hk
  obtain rfl := (seeks_iff a k).1 hk
  intro joins waits full claims
  have hj : s.canJoin i a = true ↔ joins := canJoin_iff i a s
  have hw : s.mustWait i a = true ↔ waits := mustWait_iff i a s
  have hf : Config.holdLimit ≤ s.lease.holds.length + s.claim.claims.length ↔ full := Iff.rfl
  have hc : s.station.state = .active ∧ s.claim.claims.length < Config.claimLimit ↔ claims := Iff.rfl
  unfold State.arbitrate
  refine ⟨fun h => if_pos (hj.2 h), ?_, ?_, ?_, ?_⟩
  · rintro ⟨h1, h2⟩; rw [if_neg (mt hj.1 h1), if_pos (hw.2 h2)]
  · rintro ⟨h1, h2, h3⟩; rw [if_neg (mt hj.1 h1), if_neg (mt hw.1 h2), if_pos (hf.2 h3)]
  · rintro ⟨h1, h2, h3, h4⟩; rw [if_neg (mt hj.1 h1), if_neg (mt hw.1 h2), if_neg (mt hf.1 h3), if_pos (hc.2 h4)]
  · rintro ⟨h1, h2, h3, h4⟩; rw [if_neg (mt hj.1 h1), if_neg (mt hw.1 h2), if_neg (mt hf.1 h3), if_neg (mt hc.1 h4)]

/-! ### What the changes of a record do -/

theorem mem_holders_dropHolder (x y : StationAddr) (r : ResourceRecord) :
    y ∈ (r.dropHolder x).holders ↔ y ∈ r.holders ∧ y ≠ x := by
  simp [ResourceRecord.dropHolder]

/-- The mode goes with the last holder. -/
theorem mode_dropHolder (x : StationAddr) (r : ResourceRecord) :
    ((r.dropHolder x).holders = [] → (r.dropHolder x).mode = none) ∧
      ((r.dropHolder x).holders ≠ [] → (r.dropHolder x).mode = r.mode) :=
  ⟨fun h => if_pos h, fun h => if_neg h⟩

@[simp] theorem holders_releaseNote (m : Mode) (n : List Byte) (r : ResourceRecord) : (r.releaseNote m n).holders = r.holders := by
  cases m <;> rfl
@[simp] theorem intents_releaseNote (m : Mode) (n : List Byte) (r : ResourceRecord) : (r.releaseNote m n).intents = r.intents := by
  cases m <;> rfl
@[simp] theorem mode_releaseNote (m : Mode) (n : List Byte) (r : ResourceRecord) : (r.releaseNote m n).mode = r.mode := by
  cases m <;> rfl

/-- A release takes the releaser from the holders, and an EXCLUSIVE one sets the note (R13, R15). -/
theorem release_spec (x : StationAddr) (m : Mode) (n : List Byte) (r : ResourceRecord) :
    (∀ y, y ∈ (r.release x m n).holders ↔ y ∈ r.holders ∧ y ≠ x) ∧ (r.release x m n).intents = r.intents ∧
      ((r.release x m n).holders = [] → (r.release x m n).mode = none) ∧
      ((r.release x m n).holders ≠ [] → (r.release x m n).mode = r.mode) ∧
      (m = .shared → (r.release x m n).note = r.note) ∧
      (m = .exclusive → (r.release x m n).note = if n = [] then .absent else .present n) := by
  simp only [ResourceRecord.release, holders_releaseNote, intents_releaseNote, mode_releaseNote]
  refine ⟨fun y => mem_holders_dropHolder x y r, rfl, (mode_dropHolder x r).1, (mode_dropHolder x r).2, ?_, ?_⟩
  · rintro rfl; rfl
  · rintro rfl; rfl

/-- An intent joins in the place of its originator's, and the others stay (R10). -/
theorem mem_insertIntent_iff (i j : Intent) (l : List Intent) (h : (l.map Intent.originator).Pairwise (· < ·)) :
    j ∈ insertIntent i l ↔ j = i ∨ (j ∈ l ∧ j.originator ≠ i.originator) := by
  induction l with
  | nil => simp [insertIntent]
  | cons a l ih =>
    rw [List.map_cons, List.pairwise_cons] at h
    obtain ⟨ha, hl⟩ := h
    have hlt : ∀ j ∈ l, a.originator < j.originator := fun j hj => ha _ (List.mem_map_of_mem hj)
    simp only [insertIntent]
    split
    · rename_i hi
      have hne : ∀ j ∈ a :: l, j.originator ≠ i.originator := fun j hj => by
        rcases List.mem_cons.1 hj with rfl | hj
        · exact Fin.ne_of_gt hi
        · exact Fin.ne_of_gt (Fin.lt_trans hi (hlt j hj))
      rw [List.mem_cons]
      exact or_congr_right ⟨fun hj => ⟨hj, hne j hj⟩, And.left⟩
    · split
      · rename_i hi
        have hne : ∀ j ∈ l, j.originator ≠ i.originator := fun j hj => hi ▸ Fin.ne_of_gt (hlt j hj)
        grind
      · rename_i hi
        have hne : a.originator ≠ i.originator := fun e => hi e.symm
        rw [List.mem_cons, ih hl]
        grind

/-- A client joins in the place of its former pair, and the others stay (R7). -/
theorem mem_insertClient_iff (p q : Client × Byte) (l : List (Client × Byte)) (h : (l.map Prod.fst).Pairwise (· < ·)) :
    q ∈ insertClient p l ↔ q = p ∨ (q ∈ l ∧ q.1 ≠ p.1) := by
  induction l with
  | nil => simp [insertClient]
  | cons a l ih =>
    rw [List.map_cons, List.pairwise_cons] at h
    obtain ⟨ha, hl⟩ := h
    have hlt : ∀ q ∈ l, a.1 < q.1 := fun q hq => ha _ (List.mem_map_of_mem hq)
    simp only [insertClient]
    split
    · rename_i hp
      have hne : ∀ q ∈ a :: l, q.1 ≠ p.1 := fun q hq => by
        rcases List.mem_cons.1 hq with rfl | hq
        · exact Fin.ne_of_gt hp
        · exact Fin.ne_of_gt (Fin.lt_trans hp (hlt q hq))
      rw [List.mem_cons]
      exact or_congr_right ⟨fun hq => ⟨hq, hne q hq⟩, And.left⟩
    · split
      · rename_i hp
        have hne : ∀ q ∈ l, q.1 ≠ p.1 := fun q hq => hp ▸ Fin.ne_of_gt (hlt q hq)
        grind
      · rename_i hp
        have hne : a.1 ≠ p.1 := fun e => hp e.symm
        rw [List.mem_cons, ih hl]
        grind

/-- A grant of SHARED mode stands beside SHARED holders and drops an EXCLUSIVE one (R11, R14). -/
theorem mem_holders_grant_shared (x y : StationAddr) (r : ResourceRecord) :
    y ∈ (r.grant x .shared).holders ↔ y = x ∨ (r.mode ≠ some .exclusive ∧ y ∈ r.holders) := by
  by_cases h : r.mode = some .exclusive
  · simp [ResourceRecord.grant, h]
  · simp [ResourceRecord.grant, h, mem_insertAddr]

/-- The record of the resource after an own release, and every other (R15, R64). -/
theorem record_ownRelease (self : StationAddr) (k j : Resource) (m : Mode) (n : List Byte) (l : LeaseTable) :
    (l.ownRelease self k m n).record j = if k = j then (l.record k).release self m n else l.record j := by
  simp [LeaseTable.ownRelease, LeaseTable.record_modify]

/-- The record of the resource after an own grant, and every other (R14). -/
theorem record_ownGrant (self : StationAddr) (k j : Resource) (m : Mode) (p : Client × Byte) (l : LeaseTable) :
    (l.ownGrant self k m p).record j = if k = j then (l.record k).grant self m else l.record j :=
  LeaseTable.record_modify k j _ l

theorem hasClient_iff (c : Client) (e : HoldEntry) : e.hasClient c = true ↔ ∃ t, (c, t) ∈ e.clients := by
  simp [HoldEntry.hasClient]

/-- Settles O16, by the rules of the single changes. -/
theorem leaseChangesKeepTheRest : Obligations.LeaseChangesKeepTheRest := by
  refine ⟨?ownRelease, ?clients, ?modifyHold, ?ownGrant, ?record⟩
  case ownRelease =>
    intro self k m note l t
    have hk : t.record k = (l.record k).release self m note := (record_ownRelease self k k m note l).trans (if_pos rfl)
    have hj : ∀ j, j ≠ k → t.record j = l.record j := fun j hj => (record_ownRelease self k j m note l).trans (if_neg hj.symm)
    rw [hk]
    exact ⟨rfl, hj, release_spec self m note (l.record k)⟩
  case clients =>
    intro e p c joined
    refine ⟨rfl, hasClient_iff c e, rfl, fun h => ⟨sorted_insertClient p _ h, fun q => mem_insertClient_iff p q _ h⟩⟩
  case modifyHold =>
    intro k f l
    refine ⟨rfl, fun _ => rfl, fun e he => ?_⟩
    obtain ⟨hr, hp, hm⟩ := LeaseTable.heldEntry?_spec k l e he
    exact ⟨hm, hr, hp⟩
  case ownGrant =>
    intro self k m p l
    exact ⟨rfl, (record_ownGrant self k k m p l).trans (if_pos rfl),
      fun j hj => (record_ownGrant self k j m p l).trans (if_neg hj.symm)⟩
  case record =>
    intro r x m q note claimed granted released modeOf
    refine ⟨⟨fun y => mem_holders_dropHolder x y r, rfl, mode_dropHolder x r, mem_insertIntent _ _, fun h => ?_⟩, ?_, ?_⟩
    · exact ⟨sorted_insertIntent _ _ h, fun j => mem_insertIntent_iff _ j _ h⟩
    · refine ⟨rfl, rfl, ?_, ?_, rfl⟩
      · rintro rfl; rfl
      · rintro rfl y; exact mem_holders_grant_shared x y r
    · obtain ⟨hholders, hintents, hnone, hsome, hnote⟩ := release_spec x m note r
      exact ⟨hholders, hintents, ⟨hnone, hsome⟩, hnote⟩

end Sys2Proof.LeaseProofs

/-! ## Re-examination and the examination of an ACQUIRE (O13, O14) -/

namespace Sys2Proof.LeaseProofs
open Sys2Proof.Machine Sys2Proof.Statement

/-! ### The order of acceptance -/

theorem insertByAccept_perm (p : Nat × SlotIx) (l : List (Nat × SlotIx)) : (insertByAccept p l).Perm (p :: l) := by
  induction l with
  | nil => exact .refl _
  | cons q l ih =>
    simp only [insertByAccept]; split
    · exact .refl _
    · exact (ih.cons q).trans (.swap p q l)

theorem sorted_insertByAccept (p : Nat × SlotIx) (l : List (Nat × SlotIx)) (h : l.Pairwise (fun a b => a.1 ≤ b.1)) :
    (insertByAccept p l).Pairwise (fun a b => a.1 ≤ b.1) := by
  induction l with
  | nil => simp [insertByAccept]
  | cons q l ih =>
    obtain ⟨hq, hl⟩ := List.pairwise_cons.1 h
    simp only [insertByAccept]; split
    · rename_i hp
      refine List.pairwise_cons.2 ⟨fun b hb => ?_, h⟩
      rcases List.mem_cons.1 hb with rfl | hb
      · exact Nat.le_of_lt hp
      · exact Nat.le_trans (Nat.le_of_lt hp) (hq b hb)
    · rename_i hp
      refine List.pairwise_cons.2 ⟨fun b hb => ?_, ih hl⟩
      rcases List.mem_cons.1 ((insertByAccept_perm p l).mem_iff.1 hb) with rfl | hb
      · exact Nat.le_of_not_lt hp
      · exact hq b hb

/-- The acceptance numbers of the occupied slots, with their slots. -/
def acceptances (t : RequestTable) : List (Nat × SlotIx) :=
  (List.finRange 8).filterMap (fun i => (t.slot i).map (fun sl => (sl.accept, i)))

/-- Pairs put one after another in their place by acceptance number. -/
def byAccept (ps acc : List (Nat × SlotIx)) : List (Nat × SlotIx) := ps.foldl (fun acc p => insertByAccept p acc) acc

theorem order_eq (t : RequestTable) : t.order = (byAccept (acceptances t) []).map Prod.snd := rfl

theorem byAccept_perm (ps acc : List (Nat × SlotIx)) : (byAccept ps acc).Perm (ps ++ acc) := by
  induction ps generalizing acc with
  | nil => exact .refl _
  | cons p ps ih => exact ((ih _).trans ((insertByAccept_perm p acc).append_left ps)).trans List.perm_middle

theorem sorted_byAccept (ps acc : List (Nat × SlotIx)) (h : acc.Pairwise (fun a b => a.1 ≤ b.1)) :
    (byAccept ps acc).Pairwise (fun a b => a.1 ≤ b.1) := by
  induction ps generalizing acc with
  | nil => exact h
  | cons p ps ih => exact ih _ (sorted_insertByAccept p acc h)

theorem mem_acceptances (t : RequestTable) (p : Nat × SlotIx) :
    p ∈ acceptances t ↔ ∃ sl, t.slot p.2 = some sl ∧ sl.accept = p.1 := by
  obtain ⟨n, i⟩ := p
  simp only [acceptances, List.mem_filterMap, List.mem_finRange, true_and, Option.map_eq_some_iff, Prod.mk.injEq]
  constructor
  · rintro ⟨_, sl, hs, hn, rfl⟩; exact ⟨sl, hs, hn⟩
  · rintro ⟨sl, hs, hn⟩; exact ⟨i, sl, hs, hn, rfl⟩

theorem order_perm (t : RequestTable) : t.order.Perm ((acceptances t).map Prod.snd) := by
  rw [order_eq]
  simpa using (byAccept_perm (acceptances t) []).map Prod.snd

/-- The order names exactly the occupied slots. -/
theorem mem_order (t : RequestTable) (i : SlotIx) : i ∈ t.order ↔ ∃ sl, t.slot i = some sl := by
  rw [(order_perm t).mem_iff, List.mem_map]
  constructor
  · rintro ⟨p, hp, rfl⟩
    obtain ⟨sl, hs, -⟩ := (mem_acceptances t p).1 hp
    exact ⟨sl, hs⟩
  · rintro ⟨sl, hs⟩
    exact ⟨(sl.accept, i), (mem_acceptances t _).2 ⟨sl, hs, rfl⟩, rfl⟩

/-- The order names no slot twice. -/
theorem order_nodup (t : RequestTable) : t.order.Nodup := by
  rw [(order_perm t).nodup_iff, acceptances, List.map_filterMap]
  refine List.Pairwise.filterMap _ (fun i j hij x hi y hj => ?_) (List.nodup_finRange 8)
  simp only [Option.map_map, Option.map_eq_some_iff, Function.comp_apply] at hi hj
  obtain ⟨-, -, rfl⟩ := hi
  obtain ⟨-, -, rfl⟩ := hj
  exact hij

/-- The order is that of the acceptance numbers (R77). -/
theorem order_sorted (t : RequestTable) :
    t.order.Pairwise (fun a b => ∀ x y, t.slot a = some x → t.slot b = some y → x.accept ≤ y.accept) := by
  rw [order_eq, List.pairwise_map]
  refine (sorted_byAccept (acceptances t) [] .nil).imp_of_mem (fun {p q} hp hq hle x y hx hy => ?_)
  have hmem : ∀ {p}, p ∈ byAccept (acceptances t) [] → p ∈ acceptances t := fun h => by
    simpa using (byAccept_perm (acceptances t) []).mem_iff.1 h
  obtain ⟨_, hp, hpn⟩ := (mem_acceptances t p).1 (hmem hp)
  obtain ⟨_, hq, hqn⟩ := (mem_acceptances t q).1 (hmem hq)
  obtain rfl := Option.some.inj (hp.symm.trans hx)
  obtain rfl := Option.some.inj (hq.symm.trans hy)
  rw [hpn, hqn]; exact hle

/-! ### What a pass names (R92) -/

theorem mem_waitingFor (k : Resource) (t : RequestTable) (i : SlotIx) :
    i ∈ t.waitingFor k ↔ ∃ sl, t.slot i = some sl ∧ sl.waitsFor = some k := by
  rw [RequestTable.waitingFor, List.mem_filter, mem_order]
  cases t.slot i <;> simp

theorem mem_offer (k : Resource) (t : RequestTable) (p : SlotIx × Option Resource) :
    p ∈ t.offer k ↔ p.2 = some k ∧ ∃ sl, t.slot p.1 = some sl ∧ sl.waitsFor = some k := by
  obtain ⟨i, r⟩ := p
  simp only [RequestTable.offer, List.mem_map, mem_waitingFor, Prod.mk.injEq]
  constructor
  · rintro ⟨_, h, rfl, rfl⟩; exact ⟨rfl, h⟩
  · rintro ⟨rfl, h⟩; exact ⟨i, h, rfl, rfl⟩

theorem mem_everyWaiting (t : RequestTable) (p : SlotIx × Option Resource) :
    p ∈ t.everyWaiting ↔ p.2 = none ∧ ∃ sl, t.slot p.1 = some sl ∧ sl.waitsFor ≠ none := by
  obtain ⟨i, r⟩ := p
  rw [RequestTable.everyWaiting, List.mem_map]
  constructor
  · rintro ⟨j, h, he⟩
    cases he
    obtain ⟨ho, hw⟩ := List.mem_filter.1 h
    obtain ⟨sl, hs⟩ := (mem_order t i).1 ho
    rw [hs] at hw
    exact ⟨rfl, sl, hs, Option.isSome_iff_ne_none.1 hw⟩
  · rintro ⟨rfl, sl, hs, hw⟩
    refine ⟨i, List.mem_filter.2 ⟨(mem_order t i).2 ⟨sl, hs⟩, ?_⟩, rfl⟩
    rw [hs]; exact Option.isSome_iff_ne_none.2 hw

/-- The slots behind a slot wait for what it stands for and were accepted later (R92). -/
theorem mem_behind (i : SlotIx) (t : RequestTable) (sl : Slot) (hs : t.slot i = some sl) (p : SlotIx × Option Resource) :
    p ∈ t.behind i ↔ ∃ r x, sl.standsFor = some r ∧ p.2 = some r ∧ t.slot p.1 = some x ∧ x.waitsFor = some r ∧
      sl.accept < x.accept := by
  obtain ⟨j, q⟩ := p
  unfold RequestTable.behind
  simp only [hs]
  cases hr : sl.standsFor with
  | none => simp
  | some r =>
    simp only [List.mem_map, List.mem_filter, mem_waitingFor, Prod.mk.injEq, Option.some.injEq]
    constructor
    · rintro ⟨_, ⟨⟨x, hx, hw⟩, hlt⟩, rfl, rfl⟩
      rw [hx] at hlt
      exact ⟨r, x, rfl, rfl, hx, hw, by simpa using hlt⟩
    · rintro ⟨_, x, rfl, rfl, hx, hw, hlt⟩
      exact ⟨j, ⟨⟨x, hx, hw⟩, by rw [hx]; simpa using hlt⟩, rfl, rfl⟩

theorem fst_map_pair {α β : Type} (l : List α) (b : β) : (l.map (fun a => (a, b))).map Prod.fst = l := by
  simp [Function.comp_def]

theorem offer_sublist (k : Resource) (t : RequestTable) : ((t.offer k).map Prod.fst).Sublist t.order := by
  rw [RequestTable.offer, fst_map_pair]; exact List.filter_sublist

theorem everyWaiting_sublist (t : RequestTable) : (t.everyWaiting.map Prod.fst).Sublist t.order := by
  rw [RequestTable.everyWaiting, fst_map_pair]; exact List.filter_sublist

theorem behind_sublist (i : SlotIx) (t : RequestTable) : ((t.behind i).map Prod.fst).Sublist t.order := by
  unfold RequestTable.behind
  split
  · exact List.nil_sublist _
  split
  · exact List.nil_sublist _
  rw [fst_map_pair]
  exact List.filter_sublist.trans List.filter_sublist

/-! ### The passes -/

@[simp] theorem passes_nil (n : Nat) (s : State) : s.passes n [] = s := by cases n <;> rfl

theorem passes_cons (n : Nat) (i : SlotIx) (k : Option Resource) (w : Work) (s : State) :
    s.passes (n + 1) ((i, k) :: w) =
      if s.station.state.examines && s.table.stillNamed i k then (s.examine i).1.passes n (w ++ (s.examine i).2)
      else s.passes n w := rfl

/-- In LEAVING and HALTED no pass examines a slot. -/
theorem passes_unexamined (n : Nat) (w : Work) (s : State) (h : s.station.state.examines = false) : s.passes n w = s := by
  induction n generalizing w with
  | zero => rfl
  | succ n ih =>
    cases w with
    | nil => rfl
    | cons p w => rw [passes_cons, h]; exact ih w

theorem reexamine_unexamined (w : Work) (s : State) (h : s.station.state.examines = false) : s.reexamine w = s :=
  passes_unexamined _ w s h

theorem stillNamed_some (i : SlotIx) (k : Resource) (t : RequestTable) (sl : Slot) (h : t.slot i = some sl) :
    t.stillNamed i (some k) = decide (sl.waitsFor = some k) := by
  simp [RequestTable.stillNamed, h]

/-- A pass of one named slot examines it if it waits still, and then what that causes. -/
theorem reexamine_singleton (i : SlotIx) (k : Option Resource) (s : State) : s.reexamine [(i, k)] =
    if s.station.state.examines && s.table.stillNamed i k then (s.examine i).1.passes passBound (s.examine i).2 else s := by
  rw [State.reexamine, List.length_singleton, Nat.add_comm, passes_cons, List.nil_append, passes_nil]

/-- Settles O13: the works list slots of the acceptance order, and a pass examines a slot that is named still. -/
theorem reexaminationFollowsAcceptance : Obligations.ReexaminationFollowsAcceptance := by
  intro s k i
  refine ⟨mem_offer k s.table, mem_everyWaiting s.table, mem_behind i s.table, order_sorted s.table, everyWaiting_sublist s.table,
    offer_sublist k s.table, behind_sublist i s.table, ?_, ?_⟩
  · rintro w (h | h) <;> exact reexamine_unexamined w s (by rw [h]; rfl)
  · intro hst sl hs
    have hex : s.station.state.examines = true := by rcases hst with h | h | h | h <;> rw [h] <;> rfl
    rw [reexamine_singleton, stillNamed_some i k s.table sl hs, hex]
    refine ⟨fun hw => ?_, fun hw hn => ?_⟩
    · simp [hw]
    · simp [hw, hn]

end Sys2Proof.LeaseProofs

/-! ## The examination of an ACQUIRE (O14) -/

namespace Sys2Proof.LeaseProofs
open Sys2Proof.Machine Sys2Proof.Statement

/-! ### One slot written again and again -/

@[simp] theorem slot_setSlot_self (i : SlotIx) (o : Option Slot) (t : RequestTable) : (t.setSlot i o).slot i = o := by
  rw [RequestTable.slot_setSlot, if_pos rfl]

@[simp] theorem setSlot_setSlot (i : SlotIx) (o p : Option Slot) (t : RequestTable) : (t.setSlot i o).setSlot i p = t.setSlot i p := by
  simp [RequestTable.setSlot]

theorem modifySlot_some (i : SlotIx) (f : Slot → Slot) (t : RequestTable) (sl : Slot) (h : t.slot i = some sl) :
    t.modifySlot i f = t.setSlot i (some (f sl)) := by
  simp [RequestTable.modifySlot, h]

/-- The slots behind a slot stay the same where the slot stands and waits for the same resource. -/
theorem behind_setSlot (i : SlotIx) (t : RequestTable) (sl x : Slot) (h : t.slot i = some sl) (ha : x.accept = sl.accept)
    (hs : x.standsFor = sl.standsFor) (hw : x.waitsFor = sl.waitsFor) : (t.setSlot i (some x)).behind i = t.behind i := by
  refine RequestTable.behind_congr i t _ (fun j => ?_)
  rw [RequestTable.slot_setSlot]
  split
  · rename_i hj; subst hj; rw [h]; simp [ha, hs, hw]
  · rfl

/-! ### An examination by its verdict -/

/-- The ACQUIRE fields with the group of a local join added (R88). -/
def withGroup (a : Acquire) (s : State) : Acquire :=
  { a with groups := a.groups ++ [{ resource := a.current, mode := .shared, note := (s.lease.record a.current).note }] }

/-- The station after a local join of an ACQUIRE slot (R7, R88). -/
def joinedState (i : SlotIx) (sl : Slot) (a : Acquire) (s : State) : State :=
  { s with
    lease := s.lease.modifyHold a.current (HoldEntry.addClient (sl.client, sl.tag))
    table := s.table.setSlot i (some { sl with acquire := some (withGroup a s) }) }

/-- The station after a local join that begins stage 2 (R98). -/
def secondState (i : SlotIx) (sl : Slot) (a : Acquire) (s : State) : State :=
  { joinedState i sl a s with
    table := s.table.setSlot i (some { sl with
      acquire := some { withGroup a s with stage := .second, patience := 0, lost := 0, report := none } }) }

theorem localJoin_eq (i : SlotIx) (sl : Slot) (a : Acquire) (s : State) (hs : s.table.slot i = some sl) (ha : sl.acquire = some a) :
    s.localJoin i sl a = joinedState i sl a s := by
  have ht : s.table.modifyAcquire i (fun x => { x with groups := x.groups ++
      [{ resource := a.current, mode := .shared, note := (s.lease.record a.current).note }] }) =
      s.table.setSlot i (some { sl with acquire := some (withGroup a s) }) := by
    rw [RequestTable.modifyAcquire, modifySlot_some i _ _ sl hs, ha]; rfl
  unfold State.localJoin joinedState
  rw [← ht]; rfl

/-- What a slot that joined stands and waits for is what it did before. -/
theorem behind_joinedState (i : SlotIx) (sl : Slot) (a : Acquire) (s : State) (hs : s.table.slot i = some sl)
    (ha : sl.acquire = some a) : (joinedState i sl a s).table.behind i = s.table.behind i := by
  refine behind_setSlot i s.table sl _ hs rfl ?_ ?_ <;> simp [Slot.standsFor, Slot.waitsFor, ha, withGroup, Acquire.current]

section Examination
variable {i : SlotIx} {s : State} {sl : Slot} {a : Acquire} (hs : s.table.slot i = some sl) (ha : sl.acquire = some a)
include hs ha

/-- A join that ends the request (R88). -/
theorem examineOnce_join (hv : s.arbitrate i a = .join) (hc : ¬ (a.stage = .first ∧ a.followOn ≠ none)) :
    s.examineOnce i = ((joinedState i sl a s).finish i .ok (.groups (withGroup a s).groups), s.table.behind i, false) := by
  have hc' : ¬ (a.stage = .first ∧ a.followOn.isSome = true) := by rwa [Option.isSome_iff_ne_none]
  have hsucceed : (joinedState i sl a s).succeedAcquire i =
      ((joinedState i sl a s).finish i .ok (.groups (withGroup a s).groups), (joinedState i sl a s).table.behind i) := by
    simp [State.succeedAcquire, joinedState]
  rw [behind_joinedState i sl a s hs ha] at hsucceed
  simp only [State.examineOnce, hs, ha, hv, if_neg hc', localJoin_eq i sl a s hs ha, hsucceed]

/-- A join that begins stage 2 (R98). -/
theorem examineOnce_chain (hp : sl.phase = .waiting) (hv : s.arbitrate i a = .join) (hc : a.stage = .first ∧ a.followOn ≠ none) :
    s.examineOnce i = (secondState i sl a s, s.table.behind i, true) := by
  have hc' : a.stage = .first ∧ a.followOn.isSome = true := by rwa [Option.isSome_iff_ne_none]
  have hslot : (joinedState i sl a s).table.slot i = some { sl with acquire := some (withGroup a s) } := slot_setSlot_self ..
  have ht : (joinedState i sl a s).table.modifySlot i (fun sl => { sl with
        phase := .waiting, acquire := sl.acquire.map Acquire.beginStage2 }) = (secondState i sl a s).table := by
    rw [modifySlot_some i _ _ _ hslot, ← hp]
    exact setSlot_setSlot ..
  have hbegin : (joinedState i sl a s).beginStage2 i = (secondState i sl a s, s.table.behind i) := by
    rw [← behind_joinedState i sl a s hs ha, secondState]
    exact Prod.ext (congrArg (fun x => ({ joinedState i sl a s with table := x } : State)) ht) rfl
  simp only [State.examineOnce, hs, ha, hv, if_pos hc', localJoin_eq i sl a s hs ha, hbegin]

theorem examineOnce_wait (hv : s.arbitrate i a = .wait) (hw : a.wait = true) : s.examineOnce i = (s, [], false) := by
  simp only [State.examineOnce, hs, ha, hv, hw, if_true]

theorem examineOnce_busy (hv : s.arbitrate i a = .wait) (hw : a.wait = false) :
    s.examineOnce i = ((s.failAcquire i .busy).1, (s.failAcquire i .busy).2, false) := by
  simp only [State.examineOnce, hs, ha, hv, hw, Bool.false_eq_true, if_false]

theorem examineOnce_tooMany (hv : s.arbitrate i a = .tooMany) :
    s.examineOnce i = ((s.failAcquire i .tooMany).1, (s.failAcquire i .tooMany).2, false) := by
  simp only [State.examineOnce, hs, ha, hv]

theorem examineOnce_claim (hv : s.arbitrate i a = .claim) : s.examineOnce i = (s.issueClaim i a, [], false) := by
  simp only [State.examineOnce, hs, ha, hv]

theorem examineOnce_heldBack (hv : s.arbitrate i a = .heldBack) : s.examineOnce i = (s, [], false) := by
  simp only [State.examineOnce, hs, ha, hv]

end Examination

/-- An examination that does not begin stage 2 is all there is. -/
theorem examine_of_once {i : SlotIx} {s t : State} {w : Work} (h : s.examineOnce i = (t, w, false)) : s.examine i = (t, w) := by
  simp [State.examine, h]

/-- One that begins stage 2 is followed at once by the examination of stage 2 (R98). -/
theorem examine_of_again {i : SlotIx} {s t : State} {w : Work} (h : s.examineOnce i = (t, w, true)) :
    s.examine i = ((t.examineOnce i).1, w ++ (t.examineOnce i).2.1) := by
  simp [State.examine, h]

/-- Only a join in stage 1 with a follow-on begins stage 2. -/
theorem examineOnce_of_not_chain {i : SlotIx} {s : State} {sl : Slot} {a : Acquire} (hs : s.table.slot i = some sl)
    (ha : sl.acquire = some a) (h : ¬ (s.arbitrate i a = .join ∧ a.stage = .first ∧ a.followOn ≠ none)) :
    s.examineOnce i = ((s.examine i).1, (s.examine i).2, false) := by
  have hlast : (s.examineOnce i).2.2 = false := by
    cases hv : s.arbitrate i a with
    | join => rw [examineOnce_join hs ha hv (fun hc => h ⟨hv, hc⟩)]
    | wait =>
      cases hw : a.wait with
      | true => rw [examineOnce_wait hs ha hv hw]
      | false => rw [examineOnce_busy hs ha hv hw]
    | tooMany => rw [examineOnce_tooMany hs ha hv]
    | claim => rw [examineOnce_claim hs ha hv]
    | heldBack => rw [examineOnce_heldBack hs ha hv]
  have honce : s.examineOnce i = ((s.examineOnce i).1, (s.examineOnce i).2.1, false) := by rw [← hlast]
  rw [examine_of_once honce]; exact honce

/-! ### The checks of R84 -/

theorem clientHolds_iff (c : Client) (k : Resource) (l : LeaseTable) :
    l.clientHolds c k = true ↔ ∃ e p, l.hold? k = some e ∧ p ∈ e.clients ∧ p.1 = c := by
  unfold LeaseTable.clientHolds
  cases l.hold? k with
  | none => simp
  | some e => simp [HoldEntry.hasClient]

theorem namesAcquire_iff (k : Resource) (q : Request) : q.namesAcquire k = true ↔ requestNames q k := by
  unfold requestNames
  cases q with
  | acquire g m w f =>
    have hnames : (Request.acquire g m w f).namesAcquire k = true ↔ g.toNat = k.val ∨ ∃ b : Byte, f = some b ∧ b.toNat = k.val := by
      cases f <;> simp [Request.namesAcquire]
    rw [hnames]
    refine ⟨fun h => ⟨g, m, w, f, rfl, h⟩, ?_⟩
    rintro ⟨_, _, _, _, hq, h⟩
    cases hq
    exact h
  | _ => simp [Request.namesAcquire]

theorem mem_named (a : Acquire) (k : Resource) : k ∈ a.first :: a.followOn.toList ↔ seeksEver a k := by
  simp [seeksEver, eq_comm]

/-- Check 4 of R84. -/
theorem duplicates_iff (i : SlotIx) (c : Client) (tag : Byte) (a : Acquire) (s : State) :
    s.duplicates i c tag a = true ↔ duplicateRequest i c tag a s := by
  unfold State.duplicates duplicateRequest
  simp only [Bool.or_eq_true, List.any_eq_true, mem_named, clientHolds_iff, List.mem_finRange, true_and]
  refine or_congr ⟨?_, ?_⟩ (exists_congr fun j => ?_)
  · rintro ⟨k, hk, e, p, h⟩; exact ⟨k, e, p, hk, h⟩
  · rintro ⟨k, e, p, hk, h⟩; exact ⟨k, hk, e, p, h⟩
  · cases s.table.slot j with
    | none => simp
    | some x => simp [namesAcquire_iff, seeksEver, and_assoc]

/-- The slot a record is accepted into is not asked in the check. -/
theorem duplicateRequest_accepted (i : SlotIx) (r : HostRecord) (a : Acquire) (s : State) :
    duplicateRequest i r.clientNo r.tag a (accepted i .acquire r s) ↔ duplicateRequest i r.clientNo r.tag a s := by
  have hslot : ∀ j, j ≠ i → (accepted i .acquire r s).table.slot j = s.table.slot j := fun j hj => by
    rw [accepted, State.occupy, State.mapTable_table, RequestTable.slot_setSlot, if_neg hj]
  refine or_congr Iff.rfl (exists_congr fun j => exists_congr fun x => and_congr_right fun hj => ?_)
  rw [hslot j hj]

/-! ### An ACQUIRE past its checks -/

/-- A record of good form whose kind proceeds is handled in the lowest free slot (R79, R80). -/
theorem commit_proceeds (i : SlotIx) (k : RequestKind) (r : HostRecord) (s : State) (h : finds i k r s) (hk : k ≠ .restart)
    (hd : disposition (requestOf k r).kind s.station.state = .proceeds) :
    s.commit k r = (accepted i k r s).handle i r.clientNo r.tag (requestOf k r) := by
  obtain ⟨-, hform, hfree⟩ := h
  have hoffer : State.offerRequest r.clientNo r.tag (requestOf k r) { s with host := { s.host with assembly := .empty } } =
      (accepted i k r s).handle i r.clientNo r.tag (requestOf k r) := by
    simp only [State.offerRequest, hfree, hd]; rfl
  simp [State.commit, hform, hk, hoffer]

/-- An ACQUIRE in range starts in stage 1 with patience and lost count 0, no report and no groups (R85). -/
theorem startAcquire_spec {g m w : Byte} {f : Option Byte} {a : Acquire} (h : startAcquire g m w f = some a) :
    a = { a with stage := .first, patience := 0, lost := 0, report := none, groups := [] } := by
  unfold startAcquire at h
  split at h
  · dsimp only at h
    split at h
    · cases h; rfl
    · split at h
      · cases h
      · cases h; rfl
  · cases h

theorem badOrder_eq_false (a : Acquire) (h : ∀ f, a.followOn = some f → a.first < f) : a.badOrder = false := by
  unfold Acquire.badOrder
  split
  · rfl
  · rename_i f hf
    exact decide_eq_false (Fin.not_le.2 (h f hf))

/-- The slot of an accepted ACQUIRE about to be examined. -/
def startedSlot (r : HostRecord) (a : Acquire) (s : State) : Slot :=
  { client := r.clientNo, tag := r.tag, request := requestOf .acquire r, phase := .waiting, accept := s.table.occupied + 1,
    acquire := some a, completion := none }

theorem slot_started (i : SlotIx) (r : HostRecord) (a : Acquire) (s : State) :
    (started i r a s).table.slot i = some (startedSlot r a s) := by
  simp [started, accepted, State.occupy, RequestTable.slot_modifySlot, startedSlot]

/-- An ACQUIRE past its checks is examined at once (R85). -/
theorem exec_acquire_started (i : SlotIx) (r : HostRecord) (s : State) (a : Acquire) (h : finds i .acquire r s)
    (hp : proceeds s.station.state) (ha : acquireOf r = some a) (ho : ∀ f, a.followOn = some f → a.first < f)
    (hf : s.table.fault r.clientNo = false) (hd : ¬ duplicateRequest i r.clientNo r.tag a s) :
    exec (.acquire r) s = atOnce s (reexamined ((started i r a s).examine i)) := by
  have hproceeds : disposition (requestOf .acquire r).kind s.station.state = .proceeds := by
    rcases hp with hp | hp | hp | hp <;> rw [hp] <;> rfl
  have hdup : (accepted i .acquire r s).duplicates i r.clientNo r.tag a = false := by
    rwa [← Bool.not_eq_true, duplicates_iff, duplicateRequest_accepted]
  have hfault : (accepted i .acquire r s).table.fault r.clientNo = false := hf
  have hhandle : (accepted i .acquire r s).handle i r.clientNo r.tag (requestOf .acquire r) =
      reexamined ((started i r a s).examine i) := by
    have ha' : startAcquire (r.field 0) (r.field 1) (r.field 2) (if r.declared.toNat = 8 then some (r.field 3) else none) = some a := ha
    simp [State.handle, requestOf, State.handleAcquire, ha', badOrder_eq_false a ho, hfault, hdup, started]
  rw [exec_acquire r s h.1, commit_proceeds i .acquire r s h (by decide) hproceeds, hhandle]

/-- A started ACQUIRE brings no frame. -/
theorem started_startIdle (i : SlotIx) (r : HostRecord) (a : Acquire) (s : State) :
    (started i r a s).startIdle s = started i r a s := State.startIdle_quiet _ _ rfl rfl

theorem current_of_first {a : Acquire} (h : a.stage = .first) : a.current = a.first := by simp [Acquire.current, h]

/-- The first join of a started ACQUIRE, written as two changes. -/
theorem joinedState_started (i : SlotIx) (r : HostRecord) (a : Acquire) (s : State) (hstage : a.stage = .first) (hg : a.groups = []) :
    ((started i r a s).mapLease (fun l => l.modifyHold a.first (HoldEntry.addClient (r.clientNo, r.tag)))).mapTable (fun t =>
        t.modifyAcquire i (fun x => { x with
          groups := [{ resource := a.first, mode := .shared, note := (s.lease.record a.first).note }] })) =
      joinedState i (startedSlot r a s) a (started i r a s) := by
  have ht : (started i r a s).table.modifyAcquire i (fun x => { x with
        groups := [{ resource := a.first, mode := .shared, note := (s.lease.record a.first).note }] }) =
      (joinedState i (startedSlot r a s) a (started i r a s)).table := by
    rw [RequestTable.modifyAcquire, modifySlot_some i _ _ _ (slot_started i r a s)]
    simp only [joinedState, withGroup, startedSlot, Option.map_some, hg, List.nil_append, current_of_first hstage]
    rfl
  have hl : joinedState i (startedSlot r a s) a (started i r a s) = { started i r a s with
        lease := s.lease.modifyHold a.first (HoldEntry.addClient (r.clientNo, r.tag))
        table := (joinedState i (startedSlot r a s) a (started i r a s)).table } := by
    rw [← current_of_first hstage]; rfl
  rw [hl]
  exact congrArg (fun x => ({ started i r a s with
    lease := s.lease.modifyHold a.first (HoldEntry.addClient (r.clientNo, r.tag)), table := x } : State)) ht

/-- Stage 2 begun in a joined ACQUIRE whose counts and report are as they were at its start. -/
theorem secondState_eq (i : SlotIx) (sl : Slot) (a : Acquire) (s : State) (hpat : a.patience = 0) (hlost : a.lost = 0)
    (hrep : a.report = none) :
    (joinedState i sl a s).mapTable (fun t => t.modifyAcquire i (fun x => { x with stage := .second })) = secondState i sl a s := by
  have hslot : (joinedState i sl a s).table.slot i = some { sl with acquire := some (withGroup a s) } := slot_setSlot_self ..
  have ht : (joinedState i sl a s).table.modifyAcquire i (fun x => { x with stage := .second }) = (secondState i sl a s).table := by
    rw [RequestTable.modifyAcquire, modifySlot_some i _ _ _ hslot]
    simp only [joinedState, secondState, setSlot_setSlot, Option.map_some, withGroup, hpat, hlost, hrep]
  exact congrArg (fun x => ({ joinedState i sl a s with table := x } : State)) ht

/-- Settles O14: the verdicts of a started ACQUIRE, of any waiting one, and the issue of a claim. -/
theorem acquireIsExaminedAtOnce : Obligations.AcquireIsExaminedAtOnce := by
  refine ⟨?started, ?waiting, fun i a s => rfl⟩
  case started =>
    intro i r s a hfinds hproc ha ho hfault hdup u joined second
    obtain ⟨hstage, hpat, hlost, hrep, hgroups⟩ : a.stage = .first ∧ a.patience = 0 ∧ a.lost = 0 ∧ a.report = none ∧ a.groups = [] := by
      rw [startAcquire_spec ha]; exact ⟨rfl, rfl, rfl, rfl, rfl⟩
    have hslot : u.table.slot i = some (startedSlot r a s) := slot_started i r a s
    have hacq : (startedSlot r a s).acquire = some a := rfl
    have hjoined : joined = joinedState i (startedSlot r a s) a u := joinedState_started i r a s hstage hgroups
    have hsecond : second = secondState i (startedSlot r a s) a u := by
      rw [← secondState_eq i _ a u hpat hlost hrep, ← hjoined]
    have hbehind : joined.table.behind i = u.table.behind i := by rw [hjoined]; exact behind_joinedState i _ a u hslot hacq
    have hfail : ∀ st, u.failAcquire i st = (u.finish i st .none, u.table.behind i) := fun st => by
      simp [State.failAcquire, hslot, Slot.stage, hacq, hstage]
    have hquiet : atOnce s u = .next u := by rw [atOnce, started_startIdle]
    rw [exec_acquire_started i r s a hfinds hproc ha ho hfault hdup]
    change (_ → _ → atOnce s (reexamined (u.examine i)) = _) ∧ _
    refine ⟨fun hv hf => ?_, fun hv hf => ?_, fun hv hw => ?_, fun hv hw => ?_, fun hv => ?_, fun hv => ?_, fun hv => ?_⟩
    · rw [examine_of_once (examineOnce_join hslot hacq hv (fun hc => hc.2 hf)), ← behind_joinedState i _ a u hslot hacq, ← hjoined]
      simp [State.succeedAcquire, hjoined, joinedState]
    · rw [examine_of_again (examineOnce_chain hslot hacq rfl hv ⟨hstage, hf⟩), ← hsecond, hbehind]
    · rw [examine_of_once (examineOnce_wait hslot hacq hv hw)]; exact hquiet
    · rw [examine_of_once (examineOnce_busy hslot hacq hv hw), hfail]
    · rw [examine_of_once (examineOnce_tooMany hslot hacq hv), hfail]
    · rw [examine_of_once (examineOnce_claim hslot hacq hv)]; rfl
    · rw [examine_of_once (examineOnce_heldBack hslot hacq hv)]; exact hquiet
  case waiting =>
    intro i s sl a hs hp ha k gained joined second chains
    refine ⟨(seeks_iff a k).2 rfl, fun hv hc => ?_, fun hv hc => ?_, fun hv hw => ?_, fun hv hw => ?_, fun hv => ?_, fun hv => ?_,
      fun hv => ?_, fun h => examineOnce_of_not_chain hs ha h⟩
    · exact examine_of_once (examineOnce_join hs ha hv hc)
    · have hchain := examineOnce_chain hs ha hp hv hc
      exact ⟨hchain, examine_of_again hchain⟩
    · exact examine_of_once (examineOnce_wait hs ha hv hw)
    · exact examine_of_once (examineOnce_busy hs ha hv hw)
    · exact examine_of_once (examineOnce_tooMany hs ha hv)
    · exact examine_of_once (examineOnce_claim hs ha hv)
    · exact examine_of_once (examineOnce_heldBack hs ha hv)

end Sys2Proof.LeaseProofs

/-! ## Claims, intents and the frames of this station (O48, O44) -/

namespace Sys2Proof.LeaseProofs
open Sys2Proof.Machine Sys2Proof.Statement

/-! ### The expiry of a claim and of an intent -/

theorem tCTO_of_config {s : State} {c : Configuration} (h : s.station.config = some c) : s.tCTO = some (c.units.toNat * 100) := by
  simp [State.tCTO, h, Config.charactersPerMicro, Nat.mul_assoc]

theorem tIAGE_of_config {s : State} {c : Configuration} (h : s.station.config = some c) :
    s.tIAGE = some (2 * (c.units.toNat * 100)) := by simp [State.tIAGE, tCTO_of_config h]

theorem timedOut_of_config {s : State} {c : Configuration} (h : s.station.config = some c) (q : Byte) :
    ClaimEntry.timedOut s.tCTO q = fun e => decide (e.phase = .circulating ∧ e.sequence = q ∧ c.units.toNat * 100 ≤ e.timer) := by
  funext e
  simp [ClaimEntry.timedOut, tCTO_of_config h, reached, Bool.and_assoc]

/-- The first entry of a property is the one that is erased. -/
theorem eraseP_of_find? {α : Type} [DecidableEq α] {p : α → Bool} {l : List α} {a : α} (h : l.find? p = some a) :
    l.eraseP p = l.erase a := by
  induction l with
  | nil => cases h
  | cons x l ih =>
    cases hx : p x with
    | true =>
      rw [List.find?_cons_of_pos hx] at h
      cases h
      rw [List.eraseP_cons_of_pos hx, List.erase_cons_head]
    | false =>
      have hx' : ¬ p x = true := by simp [hx]
      rw [List.find?_cons_of_neg hx'] at h
      have hne : ¬ (x == a) = true := fun e => hx' (by rw [eq_of_beq e]; exact List.find?_some h)
      rw [List.eraseP_cons_of_neg hx', List.erase_cons_tail hne, ih h]

/-- With a frame in the queue LEAVING does not end. -/
theorem testLeaving_of_outbound {s : State} (h : s.outbound ≠ []) : s.testLeaving = s := by
  simp [State.testLeaving, State.leavingDone, h]

/-- Nor does it end where examinations follow a change that leaves a frame in the queue. -/
theorem testLeaving_reexamine {s : State} (w : Work) (h : s.outbound ≠ []) : (s.reexamine w).testLeaving = s.reexamine w := by
  obtain ⟨fs, hf⟩ := (Served.reexamine w s).outbound
  exact testLeaving_of_outbound (by simp [hf, h])

/-- Settles O48: the timers of claims and intents. -/
theorem claimAndIntentExpire : Obligations.ClaimAndIntentExpire := by
  refine ⟨fun q s e c hr hc => ⟨fun hfind => ?expires, fun hnone => ?runs⟩, fun k x s c hr hc => ⟨fun i hi hage => ?aged, fun hyoung => ?young⟩⟩
  case expires =>
    rw [← timedOut_of_config hc q] at hfind
    intro u told t
    have ht : (({ s with claim := s.claim.removeWhere (ClaimEntry.timedOut s.tCTO q) }).enqueueSettle e .withdrawn).report e.slot
        (s.expiryReport e) = t := by
      simp only [ClaimEngine.removeWhere, eraseP_of_find? hfind]; rfl
    have hout : t.outbound ≠ [] := by simp [t, State.report, State.enqueue]
    rw [exec_circuitTimeout q s hr, State.circuitExpires, hfind]
    simp only [ht, testLeaving_reexamine _ hout]
  case runs =>
    have hfind : s.claim.claims.find? (ClaimEntry.timedOut s.tCTO q) = none := by
      rw [timedOut_of_config hc q, List.find?_eq_none]; simpa using hnone
    rw [exec_circuitTimeout q s hr, State.circuitExpires, hfind]
    simp only [State.startIdle_quiet s s rfl rfl]
  case aged =>
    have haged : s.intentAged k x = true := by simp [State.intentAged, hi, tIAGE_of_config hc, reached, hage]
    rw [exec_intentExpiry k x s hr, State.intentExpires, if_pos haged]; rfl
  case young =>
    have haged : s.intentAged k x = false := by
      cases hi : (s.lease.record k).intentOf x with
      | none => simp [State.intentAged, hi]
      | some i => simpa [State.intentAged, hi, tIAGE_of_config hc, reached] using hyoung i hi
    rw [exec_intentExpiry k x s hr, State.intentExpires, if_neg (by simp [haged]), State.startIdle_quiet s s rfl rfl]

/-! ### The transmission of an own frame -/

/-- A frame being sent is available: an idle transmitter has no choice to make at the end of the change. -/
theorem noFrame_of_sends {f : OwnFrame} {rest : List OwnFrame} {s : State} (h : sends f rest s) : s.noFrame = false := by
  obtain ⟨-, -, hout⟩ := h
  simp [State.noFrame, hout]

/-- The head sent leaves the queue with the END due. -/
theorem dequeueSent_of_sends {f : OwnFrame} {rest : List OwnFrame} {s : State} (h : sends f rest s) :
    s.dequeueSent = sentHead rest s := by
  obtain ⟨-, -, hout⟩ := h
  cases rest <;> simp [State.dequeueSent, State.clearRelief, sentHead, hout]

/-- The last byte of a frame of the command's kind tells the frame's maker. -/
theorem ownSent_of_sends {f : OwnFrame} {rest : List OwnFrame} {s : State} (h : sends f rest s) (kind : Byte)
    (report : OwnFrame → State → State) (hk : f.frame.body.kindByte = kind) :
    s.ownSent kind report = (report f (sentHead rest s)).testLeaving := by
  rw [← dequeueSent_of_sends h]
  obtain ⟨-, ⟨n, hn⟩, hout⟩ := h
  simp [State.ownSent, hn, hout, hk]

/-- Only a slot in WAITING waits. -/
theorem waitsFor_of_phase {sl : Slot} (h : sl.phase ≠ .waiting) : sl.waitsFor = none := by
  cases ha : sl.acquire <;> simp [Slot.waitsFor, ha, h]

theorem released_of_slot {i : SlotIx} {s : State} {sl : Slot} (h : s.table.slot i = some sl) :
    s.released i = if sl.request = .leave then s.leaveStep i else { s with table := s.table.finishKept i } := by
  simp only [State.released, h]; rfl

/-- Settles O44: the RELEASING slot is none of those examined, so it goes on as it was. -/
theorem sentReleaseRemovesTheHold : Obligations.SentReleaseRemovesTheHold := by
  intro i g b rest s sl hsends hbody hslot hphase u v
  have hwaits : sl.waitsFor = none := waitsFor_of_phase (by rw [hphase]; decide)
  obtain ⟨n, hafter⟩ : ∃ n, v.table.slot i = some { sl with accept := n } :=
    (Settled.reexamine i (u.table.offer b.resource) u).slot sl hslot hwaits
  have hreport : State.reportRelease { frame := g, owner := some i } (sentHead rest s) = v.released i := by
    simp only [State.reportRelease, hbody]; rfl
  have hexec : exec .releaseTransmitted s = .next (v.released i).testLeaving := by
    rw [exec_releaseTransmitted s hsends.1, ownSent_of_sends hsends _ _ (by rw [hbody]; rfl), hreport,
      State.startIdle_waiting _ _ (noFrame_of_sends hsends)]
  rw [hexec, released_of_slot hafter]
  exact ⟨fun hr => by rw [if_pos hr], fun hr => by rw [if_neg hr]⟩

end Sys2Proof.LeaseProofs

/-! ## The frames of other stations (O30, O31, O32) -/

namespace Sys2Proof.LeaseProofs
open Sys2Proof.Machine Sys2Proof.Statement

/-! ### What an arrival leaves -/

@[simp] theorem arrive_station (l : List Byte) (s : State) : (s.arrive l).station = s.station := by unfold State.arrive; split <;> rfl
@[simp] theorem arrive_lease (l : List Byte) (s : State) : (s.arrive l).lease = s.lease := by unfold State.arrive; split <;> rfl
@[simp] theorem arrive_claim (l : List Byte) (s : State) : (s.arrive l).claim = s.claim := by unfold State.arrive; split <;> rfl
@[simp] theorem arrive_table (l : List Byte) (s : State) : (s.arrive l).table = s.table := by unfold State.arrive; split <;> rfl
@[simp] theorem arrive_roll (l : List Byte) (s : State) : (s.arrive l).roll = s.roll := by unfold State.arrive; split <;> rfl
@[simp] theorem arrive_outbound (l : List Byte) (s : State) : (s.arrive l).outbound = s.outbound := by unfold State.arrive; split <;> rfl

theorem leavingDone_iff (s : State) : s.leavingDone = true ↔
    s.station.state = .leaving ∧ s.outbound = [] ∧ s.claim.claims = [] ∧ s.lease.holds = [] := by
  simp only [State.leavingDone, Bool.and_eq_true, decide_eq_true_eq, List.isEmpty_iff, and_assoc]

/-- The end of LEAVING is asked of the state, the Outbound Queue, the claims and the holds. -/
theorem leavingDone_congr {s t : State} (hs : t.station.state = s.station.state) (ho : t.outbound = s.outbound)
    (hc : t.claim.claims = [] ↔ s.claim.claims = []) (hh : t.lease.holds = s.lease.holds) : t.leavingDone = s.leavingDone := by
  have hc' : t.claim.claims.isEmpty = s.claim.claims.isEmpty := by
    rw [Bool.eq_iff_iff, List.isEmpty_iff, List.isEmpty_iff]; exact hc
  simp [State.leavingDone, hs, ho, hc', hh]

@[simp] theorem leavingDone_arrive (l : List Byte) (s : State) : (s.arrive l).leavingDone = s.leavingDone :=
  leavingDone_congr (by simp) (by simp) (by simp) (by simp)

@[simp] theorem leavingDone_forward (f : Frame) (b : Body) (s : State) : (s.forward f b).leavingDone = s.leavingDone :=
  leavingDone_congr (by simp) (by simp) (by simp) (by simp)

@[simp] theorem leavingDone_modify (k : Resource) (g : ResourceRecord → ResourceRecord) (s : State) :
    (s.mapLease (fun l => l.modify k g)).leavingDone = s.leavingDone := rfl

theorem testLeaving_of_not_done {s : State} (h : s.leavingDone = false) : s.testLeaving = s := by simp [State.testLeaving, h]

/-- A re-examination does not bring the end of LEAVING. -/
theorem leavingDone_reexamine {s : State} (w : Work) (h : s.leavingDone = false) : (s.reexamine w).leavingDone = false :=
  (Served.reexamine w s).leavingDone h

/-! ### The receipt of a frame -/

theorem inReset_of_receives {l : List Byte} {s : State} (h : receives l s) : s.inReset = false := h.1

/-- A station that takes a foreign frame is not about to end LEAVING (R152). -/
theorem quiet_of_foreign {f : Frame} {s : State} (h : foreign f s) : s.leavingDone = false := h.2.2.2.2

/-- A frame that is taken and passes the format check is judged (R163). -/
theorem receive_of_receives {f : Frame} {s : State} (h : receives f.bytes s) (hf : f.wf = true) :
    s.receive f = ((s.arrive f.bytes).judgeFrame f).testLeaving := by
  have hcan : s.canReceive f.bytes = true := (State.canReceive_iff ..).2 h.2
  simp only [State.receive, hcan, hf, if_true]

/-- Every receipt is the receipt of its frame. -/
theorem exec_receipt {f : Frame} {s : State} (h : s.inReset = false) : exec (receipt f) s = atOnce s (s.receive f) := by
  obtain ⟨o, p, b⟩ := f
  cases b with
  | claim b => exact exec_claimReceipt o p b s h
  | settle b => exact exec_settleReceipt o p b s h
  | release b => exact exec_releaseReceipt o p b s h
  | roll b => exact exec_rollReceipt o p b s h
  | roster b => exact exec_rosterReceipt o p b s h
  | probe q => exact exec_probeForward o p q s h

/-- Another station's frame goes to its owning blocks, where they do not bring the end of LEAVING. -/
theorem exec_receipt_foreign {f : Frame} {s t : State} (h : foreign f s) (ht : (s.arrive f.bytes).takeForeign f = t)
    (hl : t.leavingDone = false) : exec (receipt f) s = atOnce s t := by
  obtain ⟨hrec, hwf, horigin, hhop, -⟩ := h
  have hjudge : (s.arrive f.bytes).judgeFrame f = t := by
    have hhop' : ¬ Config.hopLimit ≤ f.hop.toNat := Nat.not_le.2 hhop
    rw [State.judgeFrame, arrive_station, if_neg horigin, if_neg hhop', ht]
  rw [exec_receipt (inReset_of_receives hrec), receive_of_receives hrec hwf, hjudge, testLeaving_of_not_done hl]

theorem listens_iff (s : State) : s.listens = true ↔ applies s := by simp [State.listens, applies]

/-! ### Forwarding (O30) -/

theorem saturatingSucc_eq (h : Half) : saturatingSucc h = raised h := by
  unfold saturatingSucc raised
  split
  · assumption
  · rfl

theorem takeForeign_joining {f : Frame} {s : State} (h : s.station.state = .joining)
    (hf : (∃ b, f.body = .claim b) ∨ ∃ b, f.body = .settle b) : s.takeForeign f = s.forward f f.body := by
  have hl : s.listens = false := by simp [State.listens, h]
  rcases hf with ⟨b, hb⟩ | ⟨b, hb⟩
  · simp [State.takeForeign, hb, State.takeClaim, hl]
  · simp [State.takeForeign, hb, State.takeSettle, hl]

theorem releaseNote_eq (m : Mode) (n : List Byte) : ResourceRecord.releaseNote m n =
    fun x => if m = .exclusive then { x with note := if n = [] then .absent else .present n } else x := by
  funext x
  cases m <;> rfl

/-- Settles O30: the free space and the offer, then the frames that are forwarded and no more. -/
theorem forwardedFramesPass : Obligations.ForwardedFramesPass := by
  refine ⟨fun f b s => ⟨fun n hn => ?sending, fun hn => ?idle, fun hfits => ?joins, fun hfull => ?overflow⟩,
    fun f s h => ⟨fun q hq => ?probe, fun hj => ⟨fun b hb => ?claim, fun b hb => ?settle, fun b hb => ?release⟩⟩⟩
  case sending => simp only [RingPort.freeSpace, RingPort.sentBytes, hn]; rfl
  case idle =>
    have hsent : s.ring.sentBytes = 0 := by
      cases ht : s.ring.transmitter with
      | sendingForwarded n => exact absurd ht (hn n)
      | _ => simp [RingPort.sentBytes, ht]
    rw [RingPort.freeSpace, hsent]; rfl
  case joins => exact if_pos hfits
  case overflow =>
    have hfull' : ¬ Frame.length { f with hop := f.hop + 1, body := b } ≤ s.ring.freeSpace := Nat.not_le.2 hfull
    rw [State.forward, State.offerForward, if_neg hfull', State.countOverflow, saturatingSucc_eq]
  case probe => exact exec_receipt_foreign h (by simp [State.takeForeign, hq]) (by simp [quiet_of_foreign h])
  case claim => exact exec_receipt_foreign h (takeForeign_joining (by simpa using hj) (.inl ⟨b, hb⟩)) (by simp [quiet_of_foreign h])
  case settle => exact exec_receipt_foreign h (takeForeign_joining (by simpa using hj) (.inr ⟨b, hb⟩)) (by simp [quiet_of_foreign h])
  case release =>
    have hl : (s.arrive f.bytes).listens = false := by simp [State.listens, hj]
    refine exec_receipt_foreign h ?_ (by simp [quiet_of_foreign h])
    simp only [State.takeForeign, hb, State.takeRelease, hl, releaseNote_eq, Bool.false_eq_true, if_false]

/-! ### A passing claim (O31) -/

theorem holdConflicts_iff (b : ClaimBody) (s : State) : s.lease.holdConflicts b.resource b.mode = true ↔ holdObjects b s := by
  unfold LeaseTable.holdConflicts holdObjects
  cases s.lease.hold? b.resource <;> simp [conflicting_iff]

theorem precedes_iff (e : ClaimEntry) (o : StationAddr) (b : ClaimBody) (s : State) :
    precedes e.patience s.station.address (patienceOf b.patience) o = true ↔ entryPrecedes e o b s := by
  simp [precedes, entryPrecedes]

/-- Where a hold conflicts the station objects; a conflicting claim of its own objects or yields by its precedence (R40, R41). -/
theorem stand_eq_object {o : StationAddr} {b : ClaimBody} {s : State} (h : objects o b s) : s.stand o b = .object := by
  by_cases hh : holdObjects b s
  · rw [State.stand, if_pos ((holdConflicts_iff b s).2 hh)]
  · obtain ⟨e, ⟨he, hm⟩, hp⟩ := h.resolve_left hh
    rw [State.stand, if_neg (mt (holdConflicts_iff b s).1 hh), he]
    simp only [if_pos ((conflicting_iff ..).2 hm), if_pos ((precedes_iff ..).2 hp)]

theorem stand_eq_yield {o : StationAddr} {b : ClaimBody} {s : State} (h : yields o b s) : s.stand o b = .yield := by
  obtain ⟨hh, e, ⟨he, hm⟩, hp⟩ := h
  rw [State.stand, if_neg (mt (holdConflicts_iff b s).1 hh), he]
  simp only [if_pos ((conflicting_iff ..).2 hm), if_neg (mt (precedes_iff ..).1 hp)]

theorem stand_eq_pass {o : StationAddr} {b : ClaimBody} {s : State} (ho : ¬ objects o b s) (hy : ¬ yields o b s) :
    s.stand o b = .pass := by
  have hh : ¬ holdObjects b s := fun h => ho (.inl h)
  rw [State.stand, if_neg (mt (holdConflicts_iff b s).1 hh)]
  cases he : s.claim.claimOn b.resource with
  | none => rfl
  | some e =>
    have hm : ¬ conflicting e.mode b.mode = true := fun hm => by
      have hmeets : claimMeets e b s := ⟨he, (conflicting_iff ..).1 hm⟩
      by_cases hp : entryPrecedes e o b s
      · exact ho (.inr ⟨e, hmeets, hp⟩)
      · exact hy ⟨hh, e, hmeets, hp⟩
    simp only [if_neg hm]

@[simp] theorem stand_arrive (l : List Byte) (o : StationAddr) (b : ClaimBody) (s : State) : (s.arrive l).stand o b = s.stand o b := by
  simp [State.stand]

/-- The objection goes into an empty field; another station's stays (R42). -/
theorem object_eq (self : StationAddr) (b : ClaimBody) : b.object self = { b with objection := some (b.objection.getD self) } := by
  obtain ⟨k, m, q, p, o⟩ := b
  cases o <;> rfl

theorem leaseTakesClaim_eq (o : StationAddr) (b : ClaimBody) (s : State) : reexamined (s.leaseTakesClaim o b) = intentTaken o b s := by
  simp only [State.leaseTakesClaim, intentTaken, reexamined, List.contains_iff_mem]
  split <;> rfl

/-- A claim is judged, its intent recorded, and it goes on as the judgement left it. -/
theorem takeForeign_claim {f : Frame} {b : ClaimBody} {s : State} (hb : f.body = .claim b) (h : applies s) :
    s.takeForeign f = (intentTaken f.origin b (s.engineTakesClaim f.origin b).1).forward f (.claim (s.engineTakesClaim f.origin b).2) := by
  simp only [State.takeForeign, hb, State.takeClaim, (listens_iff s).2 h, if_true, leaseTakesClaim_eq]

theorem leavingDone_intentTaken (o : StationAddr) (b : ClaimBody) {s : State} (h : s.leavingDone = false) :
    (intentTaken o b s).leavingDone = false := by
  unfold intentTaken
  dsimp only
  split
  · exact leavingDone_reexamine _ h
  · exact h

theorem exec_passing_claim {f : Frame} {b b' : ClaimBody} {s t : State} (h : foreign f s) (ha : applies s) (hb : f.body = .claim b)
    (he : (s.arrive f.bytes).engineTakesClaim f.origin b = (t, b')) (ht : t.leavingDone = false) :
    exec (receipt f) s = atOnce s ((intentTaken f.origin b t).forward f (.claim b')) := by
  refine exec_receipt_foreign h ?_ (by rw [leavingDone_forward]; exact leavingDone_intentTaken _ _ ht)
  rw [takeForeign_claim hb (by simpa using ha), he]

/-- Settles O31: the claim is judged by what the station holds and claims, which the arrival does not change. -/
theorem passingClaimIsJudged : Obligations.PassingClaimIsJudged := by
  intro f b s h happ hb a
  have hquiet : a.leavingDone = false := by simp [a, quiet_of_foreign h]
  refine ⟨fun ho => ?object, fun hy => ?yield, fun ho hy => ?pass⟩
  case object =>
    refine exec_passing_claim h happ hb ?_ hquiet
    simp [State.engineTakesClaim, stand_eq_object ho, object_eq, a]
  case yield =>
    refine exec_passing_claim h happ hb ?_ ?_
    · simp [State.engineTakesClaim, stand_eq_yield hy, ClaimEngine.yieldOn, ClaimEngine.modifyWhere, a]
    · rw [← hquiet]; exact leavingDone_congr rfl rfl (by simp [a]) rfl
  case pass =>
    refine exec_passing_claim h happ hb ?_ hquiet
    simp [State.engineTakesClaim, stand_eq_pass ho hy, a]

/-! ### A passing SETTLE and RELEASE (O32) -/

theorem modify_congr {k : Resource} {f g : ResourceRecord → ResourceRecord} {l : LeaseTable} (h : f (l.record k) = g (l.record k)) :
    l.modify k f = l.modify k g := by simp [LeaseTable.modify, h]

theorem modify_id (k : Resource) (l : LeaseTable) : l.modify k id = l := by simp [LeaseTable.modify, LeaseTable.record]

/-- A SETTLE that frees the record offers the resource (R11, R12). -/
theorem exec_settle_frees {f : Frame} {b : SettleBody} {s : State} (g : ResourceRecord → ResourceRecord) (h : foreign f s)
    (ha : applies s) (hb : f.body = .settle b) (hg : (s.lease.record b.resource).settle f.origin b = g (s.lease.record b.resource))
    (hf : (s.lease.record b.resource).settleFrees f.origin b = true) :
    let t := (s.arrive f.bytes).mapLease (fun l => l.modify b.resource g)
    exec (receipt f) s = atOnce s ((t.reexamine (t.table.offer b.resource)).forward f f.body) := by
  intro t
  have hlisten : (s.arrive f.bytes).listens = true := (listens_iff _).2 (by simpa using ha)
  have ht : (s.arrive f.bytes).mapLease (fun l => l.modify b.resource (ResourceRecord.settle f.origin b)) = t := by
    simp only [t, State.mapLease, arrive_lease, modify_congr hg]
  have hquiet : t.leavingDone = false := by simp [t, quiet_of_foreign h]
  refine exec_receipt_foreign h ?_ (by rw [leavingDone_forward]; exact leavingDone_reexamine _ hquiet)
  simp only [State.takeForeign, hb, State.takeSettle, hlisten, if_true, ht, arrive_lease, hf]

/-- One that frees nothing offers nothing. -/
theorem exec_settle_keeps {f : Frame} {b : SettleBody} {s : State} (g : ResourceRecord → ResourceRecord) (h : foreign f s)
    (ha : applies s) (hb : f.body = .settle b) (hg : (s.lease.record b.resource).settle f.origin b = g (s.lease.record b.resource))
    (hf : (s.lease.record b.resource).settleFrees f.origin b = false) :
    exec (receipt f) s = atOnce s (((s.arrive f.bytes).mapLease (fun l => l.modify b.resource g)).forward f f.body) := by
  have hlisten : (s.arrive f.bytes).listens = true := (listens_iff _).2 (by simpa using ha)
  have ht : (s.arrive f.bytes).mapLease (fun l => l.modify b.resource (ResourceRecord.settle f.origin b)) =
      (s.arrive f.bytes).mapLease (fun l => l.modify b.resource g) := by
    simp only [State.mapLease, arrive_lease, modify_congr hg]
  refine exec_receipt_foreign h ?_ (by simp [quiet_of_foreign h])
  simp only [State.takeForeign, hb, State.takeSettle, hlisten, if_true, ht, arrive_lease, hf, Bool.false_eq_true, if_false,
    State.reexamine_nil]

theorem settle_granted (o : StationAddr) {b : SettleBody} (h : b.outcome = .granted) (r : ResourceRecord) :
    r.settle o b = r.grant o b.mode := by simp [ResourceRecord.settle, h]

theorem settle_not_granted (o : StationAddr) {b : SettleBody} (h : b.outcome ≠ .granted) (r : ResourceRecord) :
    (∀ i, r.intentOf o = some i → i.sequence = b.sequence → r.settle o b = r.dropIntent o ∧ r.settleFrees o b = true) ∧
    ((∀ i, r.intentOf o = some i → i.sequence ≠ b.sequence) → r.settle o b = r ∧ r.settleFrees o b = false) := by
  cases hb : b.outcome with
  | granted => exact absurd hb h
  | _ => cases hi : r.intentOf o <;> simp +contextual [ResourceRecord.settle, ResourceRecord.settleFrees, hb, hi]

theorem settleFrees_granted (o : StationAddr) {b : SettleBody} (h : b.outcome = .granted) (r : ResourceRecord) :
    r.settleFrees o b = true ↔ ∃ y ∈ r.holders, y ∉ (r.grant o b.mode).holders := by
  simp [ResourceRecord.settleFrees, h]

/-- Another station's RELEASE takes it out of the holders; where it was one the resource is offered (R13). -/
theorem takeForeign_release {f : Frame} {b : ReleaseBody} {s : State} (hb : f.body = .release b) (ha : applies s) :
    let t := s.mapLease (fun l => l.modify b.resource (ResourceRecord.release f.origin b.mode b.note))
    s.takeForeign f = (if f.origin ∈ (s.lease.record b.resource).holders then t.reexamine (t.table.offer b.resource) else t).forward f f.body := by
  simp only [State.takeForeign, hb, State.takeRelease, (listens_iff s).2 ha, if_true, List.contains_iff_mem]
  split <;> rfl

/-- Settles O32: what frees the record offers the resource, and only that. -/
theorem passingSettleAndReleaseAreApplied : Obligations.PassingSettleAndReleaseAreApplied := by
  refine ⟨fun f b s h happ hb => ?settle, fun f b s h happ hb => ?release⟩
  case settle =>
    refine ⟨fun hg hfrees => ?_, fun hg hkeeps => ?_, fun i hg hi hq => ?_, fun hg hi => ?_⟩
    · exact exec_settle_frees _ h happ hb (settle_granted _ hg _) ((settleFrees_granted _ hg _).2 hfrees)
    · refine exec_settle_keeps _ h happ hb (settle_granted _ hg _) ?_
      rw [← Bool.not_eq_true, settleFrees_granted _ hg]
      exact fun ⟨y, hy, hn⟩ => hn (hkeeps y hy)
    · obtain ⟨hsettle, hfrees⟩ := (settle_not_granted f.origin hg _).1 i hi hq
      exact exec_settle_frees _ h happ hb hsettle hfrees
    · obtain ⟨hsettle, hfrees⟩ := (settle_not_granted f.origin hg _).2 hi
      have hexec := exec_settle_keeps id h happ hb hsettle hfrees
      simp only [modify_id] at hexec
      exact hexec
  case release =>
    intro t
    have htake := takeForeign_release (s := s.arrive f.bytes) hb (by simpa using happ)
    have hquiet : t.leavingDone = false := by simp [t, quiet_of_foreign h]
    dsimp only at htake
    rw [arrive_lease] at htake
    refine ⟨fun hy => ?_, fun hy => ?_⟩
    · rw [if_pos hy] at htake
      exact exec_receipt_foreign h htake (by rw [leavingDone_forward]; exact leavingDone_reexamine _ hquiet)
    · rw [if_neg hy] at htake
      exact exec_receipt_foreign h htake (by rw [leavingDone_forward]; exact hquiet)

end Sys2Proof.LeaseProofs

/-! ## The halt for a duplicate address (O39) -/

namespace Sys2Proof.LeaseProofs
open Sys2Proof.Machine Sys2Proof.Statement

/-! ### Slots ended one after the other -/

/-- The slots of a list complete ABORTED, in the list's order (R153). -/
def endAborted (is : List SlotIx) (t : RequestTable) : RequestTable := is.foldl (fun t i => t.finish i .aborted .none) t

@[simp] theorem endAborted_cons (i : SlotIx) (is : List SlotIx) (t : RequestTable) :
    endAborted (i :: is) t = endAborted is (t.finish i .aborted .none) := rfl

/-- A slot not in POSTING, or a free one. -/
def unposted (t : RequestTable) (i : SlotIx) : Bool := decide ((t.slot i).map Slot.phase ≠ some .posting)

/-- A record is ready: it stands in the completion queue and its slot is free, or the slot waits with it in POSTING (R106). -/
def Ready (i : SlotIx) (c : Completion) (t : RequestTable) : Prop :=
  (.completion c ∈ t.queue ∧ t.slot i = none) ∨ ∃ x, t.slot i = some x ∧ x.phase = .posting ∧ x.completion = some c

/-- Two slots are the same, their acceptance numbers apart. -/
theorem othersKept_some {i j : SlotIx} {t u : RequestTable} (h : RequestTable.OthersKept i t u) (hj : j ≠ i) {sl : Slot}
    (hs : t.slot j = some sl) : ∃ n, u.slot j = some { sl with accept := n } := by
  have := h.slot j hj
  rw [hs] at this
  cases hu : u.slot j with
  | none => rw [hu] at this; cases this
  | some x =>
    rw [hu] at this
    obtain ⟨c, g, q, p, n, a, k⟩ := x
    obtain ⟨c', g', q', p', n', a', k'⟩ := sl
    simp only [Option.map_some, Option.some.injEq, Slot.mk.injEq] at this
    obtain ⟨rfl, rfl, rfl, rfl, -, rfl, rfl⟩ := this
    exact ⟨n, rfl⟩

theorem othersKept_none {i j : SlotIx} {t u : RequestTable} (h : RequestTable.OthersKept i t u) (hj : j ≠ i)
    (hs : t.slot j = none) : u.slot j = none := by
  have := h.slot j hj
  simpa [hs] using this

theorem unposted_othersKept {i j : SlotIx} {t u : RequestTable} (h : RequestTable.OthersKept i t u) (hj : j ≠ i) :
    unposted u j = unposted t j := by
  cases hs : t.slot j with
  | none => simp [unposted, hs, othersKept_none h hj hs]
  | some sl =>
    obtain ⟨n, hn⟩ := othersKept_some h hj hs
    simp [unposted, hs, hn]

theorem ready_post (i : SlotIx) (c : Completion) {t : RequestTable} {sl : Slot} (hs : t.slot i = some sl) : Ready i c (t.post i c) := by
  by_cases h : t.admits = true ∧ t.posting = []
  · rw [RequestTable.post_admitted i c t h.1 h.2]
    refine .inl ⟨by simp, ?_⟩
    exact (RequestTable.slot_freeSlot i i t sl hs).trans (if_pos rfl)
  · rw [RequestTable.post_waits i c t h]
    refine .inr ⟨{ sl with phase := .posting, completion := some c }, ?_, rfl, rfl⟩
    exact (RequestTable.slot_modifySlot i i _ t).trans (by rw [if_pos rfl, hs]; rfl)

/-- A finished slot's record is ready (R106). -/
theorem ready_finish (i : SlotIx) (st : Status) (c : Content) {t : RequestTable} {sl : Slot} (hs : t.slot i = some sl) :
    Ready i (sl.record st c) (t.finish i st c) := by
  simpa only [RequestTable.finish, hs] using ready_post i _ hs

theorem mem_queue_post (i : SlotIx) (c : Completion) {t : RequestTable} {q : QueueRecord} (h : q ∈ t.queue) : q ∈ (t.post i c).queue := by
  unfold RequestTable.post
  split
  · exact List.mem_append_left _ h
  · simpa using h

theorem mem_queue_finish (i : SlotIx) (st : Status) (c : Content) {t : RequestTable} {q : QueueRecord} (h : q ∈ t.queue) :
    q ∈ (t.finish i st c).queue := by
  unfold RequestTable.finish
  split
  · exact h
  · exact mem_queue_post _ _ h

/-- A ready record stays ready while other slots finish. -/
theorem Ready.finish {i j : SlotIx} {c : Completion} {t : RequestTable} (h : Ready i c t) (hij : i ≠ j) (st : Status) (k : Content) :
    Ready i c (t.finish j st k) := by
  have hkept := RequestTable.OthersKept.finish j st k t
  rcases h with ⟨hq, hs⟩ | ⟨x, hs, hp, hc⟩
  · exact .inl ⟨mem_queue_finish _ _ _ hq, othersKept_none hkept hij hs⟩
  · obtain ⟨n, hn⟩ := othersKept_some hkept hij hs
    exact .inr ⟨_, hn, hp, hc⟩

/-- What is ended, slot by slot: the faults stay, a slot outside the list keeps all but its acceptance number, and the record of
every occupied slot of the list is ready. -/
theorem endAborted_spec (is : List SlotIx) (t : RequestTable) (hnd : is.Nodup) :
    (endAborted is t).faults = t.faults ∧
    (∀ j, j ∉ is → (t.slot j = none → (endAborted is t).slot j = none) ∧
      (∀ sl, t.slot j = some sl → ∃ n, (endAborted is t).slot j = some { sl with accept := n })) ∧
    (∀ j c, j ∉ is → Ready j c t → Ready j c (endAborted is t)) ∧
    (∀ j sl, j ∈ is → t.slot j = some sl → Ready j (sl.record .aborted .none) (endAborted is t)) := by
  induction is generalizing t with
  | nil => exact ⟨rfl, fun j _ => ⟨id, fun sl hs => ⟨sl.accept, hs⟩⟩, fun j c _ => id, fun j sl hj => absurd hj List.not_mem_nil⟩
  | cons i is ih =>
    obtain ⟨hi, hnd⟩ := List.nodup_cons.1 hnd
    obtain ⟨hfaults, hkept, hready, hended⟩ := ih (t.finish i .aborted .none) hnd
    have hother := RequestTable.OthersKept.finish i .aborted .none t
    rw [endAborted_cons]
    refine ⟨hfaults.trans (RequestTable.finish_faults ..), fun j hj => ?_, fun j c hj h => ?_, fun j sl hj hs => ?_⟩
    · obtain ⟨hji, hj⟩ := not_or.1 (mt List.mem_cons.2 hj)
      refine ⟨fun hs => (hkept j hj).1 (othersKept_none hother hji hs), fun sl hs => ?_⟩
      obtain ⟨n, hn⟩ := othersKept_some hother hji hs
      obtain ⟨m, hm⟩ := (hkept j hj).2 _ hn
      exact ⟨m, hm⟩
    · obtain ⟨hji, hj⟩ := not_or.1 (mt List.mem_cons.2 hj)
      exact hready j c hj (h.finish hji _ _)
    · by_cases hji : j = i
      · subst hji
        exact hready j _ hi (ready_finish j .aborted .none hs)
      · obtain ⟨n, hn⟩ := othersKept_some hother hji hs
        exact hended j { sl with accept := n } (List.mem_of_ne_of_mem hji hj) hn

/-- The halt's ending of the slots is that of those not in POSTING at its start. -/
theorem foldl_abortSlot (is : List SlotIx) (s : State) (hnd : is.Nodup) :
    is.foldl State.abortSlot s = { s with table := endAborted (is.filter (unposted s.table)) s.table } := by
  induction is generalizing s with
  | nil => rfl
  | cons i is ih =>
    obtain ⟨hi, hnd⟩ := List.nodup_cons.1 hnd
    cases hp : unposted s.table i with
    | true =>
      have hstep : s.abortSlot i = { s with table := s.table.finish i .aborted .none } := by
        unfold State.abortSlot
        split
        · rename_i hs
          simp only [RequestTable.finish, hs]
        · rename_i sl hs
          have hphase : sl.phase ≠ .posting := by simpa [unposted, hs] using hp
          rw [if_neg hphase]; rfl
      have hrest : is.filter (unposted (s.table.finish i .aborted .none)) = is.filter (unposted s.table) :=
        List.filter_congr (fun j hj => unposted_othersKept (.finish ..) (fun h => hi (h ▸ hj)))
      rw [List.foldl_cons, List.filter_cons_of_pos hp, endAborted_cons, hstep, ih _ hnd, ← hrest]
    | false =>
      have hstep : s.abortSlot i = s := by
        obtain ⟨sl, hs, hphase⟩ : ∃ sl, s.table.slot i = some sl ∧ sl.phase = .posting := by
          simpa [unposted, Option.map_eq_some_iff] using hp
        simp [State.abortSlot, hs, hphase]
      rw [List.foldl_cons, List.filter_cons_of_neg (by simp [hp]), hstep, ih s hnd]

/-! ### The halt -/

/-- The station at the halt, before its notice. -/
def haltedState (s : State) : State :=
  { s.assertBypass with
    station := { s.station with state := .halted }
    claim := { s.claim with claims := [] }
    lease := s.lease.halt s.station.address
    roll := s.roll.halt
    table := endAborted (s.table.order.filter (unposted s.table)) s.table }

theorem duplicateHalt_eq (s : State) : s.duplicateHalt =
    (haltedState s).raiseNotice (.state .duplicateAddress s.station.state .halted) := by
  simp only [State.duplicateHalt, foldl_abortSlot _ _ (order_nodup _)]
  rfl

theorem raiseNotice_room (n : Notice) {s : State} (h : s.table.queue.length < 16) :
    s.raiseNotice n = { s with table := { s.table with queue := s.table.queue ++ [.notice n] } } := if_pos h

theorem raiseNotice_full (n : Notice) {s : State} (h : 16 ≤ s.table.queue.length) :
    s.raiseNotice n = { s with host := { s.host with noticeLost := true } } := if_neg (Nat.not_lt.2 h)

/-- A notice leaves the slots and the faults, and what stands in the queue. -/
theorem raiseNotice_table (n : Notice) (s : State) : (s.raiseNotice n).table.faults = s.table.faults ∧
    (∀ i, (s.raiseNotice n).table.slot i = s.table.slot i) ∧ ∀ i c, Ready i c s.table → Ready i c (s.raiseNotice n).table := by
  unfold State.raiseNotice
  split
  · exact ⟨rfl, fun _ => rfl, fun i c => Or.imp_left (And.imp_left (List.mem_append_left _))⟩
  · exact ⟨rfl, fun _ => rfl, fun i c => id⟩

/-- Settles O39: the slots end as `endAborted` ends them, and the notice comes last. -/
theorem duplicateAddressHalts : Obligations.DuplicateAddressHalts := by
  intro s hr t ended
  have hended : ended = (haltedState s).table := rfl
  have ht : t = (haltedState s).raiseNotice (.state .duplicateAddress s.station.state .halted) := duplicateHalt_eq s
  have hstation : t.station = { s.station with state := .halted } := by rw [ht, State.raiseNotice_station]; rfl
  have hlease : t.lease = s.lease.halt s.station.address := by rw [ht, State.raiseNotice_lease]; rfl
  have hring : t.ring = s.assertBypass.ring := by rw [ht, State.raiseNotice_ring]; rfl
  obtain ⟨hfaults, hslots, hready⟩ := raiseNotice_table (.state .duplicateAddress s.station.state .halted) (haltedState s)
  rw [← ht] at hfaults hslots hready
  obtain ⟨hfaults', hkept, -, haborted⟩ := endAborted_spec (s.table.order.filter (unposted s.table)) s.table ((order_nodup _).filter _)
  have hin : ∀ i sl, s.table.slot i = some sl → sl.phase ≠ .posting → i ∈ s.table.order.filter (unposted s.table) :=
    fun i sl hs hp => List.mem_filter.2 ⟨(mem_order _ i).2 ⟨sl, hs⟩, by simpa [unposted, hs] using hp⟩
  have hout : ∀ i, (∀ sl, s.table.slot i = some sl → sl.phase = .posting) → i ∉ s.table.order.filter (unposted s.table) := by
    intro i h hi
    obtain ⟨hi, hp⟩ := List.mem_filter.1 hi
    obtain ⟨sl, hs⟩ := (mem_order _ i).1 hi
    simp [unposted, hs, h sl hs] at hp
  have hending : ∀ i sl, s.table.slot i = some sl → sl.phase ≠ .posting → Ready i (sl.record .aborted .none) t.table :=
    fun i sl hs hp => hready i _ (haborted i sl (hin i sl hs hp) hs)
  have hposting : ∀ i sl, s.table.slot i = some sl → sl.phase = .posting → ∃ n, t.table.slot i = some { sl with accept := n } :=
    fun i sl hs hp => by
      rw [hslots]
      exact (hkept i (hout i (fun x hx => by rw [hs] at hx; cases hx; exact hp))).2 sl hs
  refine ⟨hstation, ?bypass, by rw [ht, State.raiseNotice_outbound]; rfl, congrArg RingPort.forwarding hring, congrArg RingPort.linkUp hring,
    congrArg RingPort.receiver hring, congrArg RingPort.transmitter hring, congrArg RingPort.relief hring,
    by rw [hring]; rfl, by rw [hring]; rfl, by rw [hring]; rfl,
    by rw [ht, State.raiseNotice_claim]; rfl, by rw [hlease]; rfl, fun k => ?records, by rw [ht, State.raiseNotice_roll]; rfl,
    by rw [ht, State.raiseNotice_probe]; rfl, fun i x hx => ?allPosting, hfaults.trans hfaults', fun hroom => ?room, fun hfull => ?full,
    hending, hposting⟩
  case bypass => simp [State.bypassAsserted, hstation, StationState.onRing]
  case records =>
    have hrecord : t.lease.record k = (s.lease.record k).dropHolder s.station.address := by
      rw [hlease]; exact LeaseTable.record_mapRecords k _ _
    rw [hrecord]
    exact ⟨fun h => ((mem_holders_dropHolder ..).1 h).2 rfl, rfl⟩
  case allPosting =>
    cases hs : s.table.slot i with
    | none =>
      have hnone := (hkept i (hout i (by simp [hs]))).1 hs
      rw [hslots] at hx
      exact absurd (hnone.symm.trans hx) (by simp)
    | some sl =>
      by_cases hp : sl.phase = .posting
      · obtain ⟨n, hn⟩ := hposting i sl hs hp
        rw [hn] at hx; cases hx; exact hp
      · rcases hending i sl hs hp with ⟨-, hn⟩ | ⟨y, hy, hphase, -⟩
        · rw [hn] at hx; cases hx
        · rw [hy] at hx; cases hx; exact hphase
  case room =>
    rw [hended] at hroom ⊢
    rw [ht, raiseNotice_room _ hroom]
    exact ⟨rfl, rfl⟩
  case full =>
    rw [hended] at hfull ⊢
    rw [ht, raiseNotice_full _ hfull]
    exact ⟨rfl, rfl⟩

end Sys2Proof.LeaseProofs

/-! ## Rosters (O34) -/

namespace Sys2Proof.LeaseProofs
open Sys2Proof.Machine Sys2Proof.Statement

/-! ### The comparison of rosters -/

theorem mem_departed (self : StationAddr) (old new : List RosterEntry) (z : StationAddr) :
    z ∈ departed self old new ↔ z ≠ self ∧ z ∈ old.map RosterEntry.address ∧ z ∉ new.map RosterEntry.address := by
  simp only [departed, List.mem_filter, List.mem_finRange, true_and, Bool.and_eq_true, decide_eq_true_eq, List.contains_iff_mem,
    Bool.not_eq_true', ← Bool.not_eq_true, addresses, and_assoc]

theorem mem_freshSet (self : StationAddr) (new : List RosterEntry) (z : StationAddr) :
    z ∈ freshSet self new ↔ z ≠ self ∧ { address := z, fresh := true } ∈ new := by
  simp only [freshSet, List.mem_filter, List.mem_finRange, true_and, Bool.and_eq_true, decide_eq_true_eq, List.any_eq_true]
  refine and_congr_right fun _ => ⟨?_, fun h => ⟨_, h, rfl, rfl⟩⟩
  rintro ⟨⟨a, fr⟩, he, rfl, rfl⟩
  exact he

theorem mem_added (self : StationAddr) (old new : List RosterEntry) (z : StationAddr) :
    z ∈ added self old new ↔ (z ≠ self ∧ z ∈ new.map RosterEntry.address ∧ z ∉ old.map RosterEntry.address) ∨
      (z ≠ self ∧ { address := z, fresh := true } ∈ new) := by
  have hfresh : { address := z, fresh := true } ∈ new → z ∈ new.map RosterEntry.address :=
    fun h => List.mem_map.2 ⟨_, h, rfl⟩
  simp only [added, List.mem_filter, List.mem_finRange, true_and, Bool.and_eq_true, Bool.or_eq_true, decide_eq_true_eq,
    List.contains_iff_mem, Bool.not_eq_true', ← Bool.not_eq_true, addresses, mem_freshSet]
  constructor
  · rintro ⟨⟨hz, hnew⟩, hold | hf⟩
    · exact .inl ⟨hz, hnew, hold⟩
    · exact .inr hf
  · rintro (⟨hz, hnew, hold⟩ | ⟨hz, hf⟩)
    · exact ⟨⟨hz, hnew⟩, .inl hold⟩
    · exact ⟨⟨hz, hfresh hf⟩, .inr ⟨hz, hf⟩⟩

/-- A choice of addresses in increasing number is increasing. -/
theorem sorted_filter_finRange {n : Nat} (p : Fin n → Bool) : ((List.finRange n).filter p).Pairwise (· < ·) :=
  (List.pairwise_lt_finRange n).filter p

/-! ### Reclaim -/

theorem intentOf_eq_none_iff (r : ResourceRecord) (z : StationAddr) : r.intentOf z = none ↔ ∀ i ∈ r.intents, i.originator ≠ z := by
  simp [ResourceRecord.intentOf, List.find?_eq_none]

/-- A reclaim takes the named stations from a record and keeps the rest (R23). -/
theorem reclaim_spec (zs : List StationAddr) (r : ResourceRecord) :
    (r.reclaim zs).holders = r.holders.filter (fun y => decide (y ∉ zs)) ∧
    (r.reclaim zs).intents = r.intents.filter (fun i => decide (i.originator ∉ zs)) ∧ (r.reclaim zs).note = r.note ∧
    ((r.reclaim zs).holders ≠ [] → (r.reclaim zs).mode = r.mode) := by
  induction zs generalizing r with
  | nil =>
    have hall : ∀ {α : Type} (l : List α) (f : α → StationAddr), l = l.filter (fun a => decide (f a ∉ ([] : List StationAddr))) :=
      fun l f => (List.filter_eq_self.2 fun a _ => decide_eq_true List.not_mem_nil).symm
    exact ⟨hall r.holders id, hall r.intents Intent.originator, rfl, fun _ => rfl⟩
  | cons z zs ih =>
    obtain ⟨hholders, hintents, hnote, hmode⟩ := ih ((r.dropHolder z).dropIntent z)
    have hcons : r.reclaim (z :: zs) = ((r.dropHolder z).dropIntent z).reclaim zs := rfl
    rw [hcons]
    refine ⟨?_, ?_, hnote, fun hne => (hmode hne).trans ((mode_dropHolder z r).2 fun h => hne ?_)⟩
    · rw [hholders]
      simp [ResourceRecord.dropIntent, ResourceRecord.dropHolder, List.filter_filter, Bool.and_comm]
    · rw [hintents]
      simp [ResourceRecord.dropIntent, ResourceRecord.dropHolder, List.filter_filter, Bool.and_comm]
    · rw [hholders, List.filter_eq_nil_iff]
      exact fun y hy => absurd (h ▸ hy) List.not_mem_nil

theorem record_reclaim (zs : List StationAddr) (l : LeaseTable) (k : Resource) : (l.reclaim zs).record k = (l.record k).reclaim zs :=
  LeaseTable.record_mapRecords k _ l

theorem mem_reclaimed (zs : List StationAddr) (l : LeaseTable) (k : Resource) :
    k ∈ l.reclaimed zs ↔ ∃ z ∈ zs, z ∈ (l.record k).holders ∨ (l.record k).intentOf z ≠ none := by
  simp [LeaseTable.reclaimed, ResourceRecord.names, Option.isSome_iff_ne_none]

/-! ### The roll at a ROSTER -/

/-- A ROSTER notice is raised by the lists of added and departed addresses (R129). -/
theorem raiseRoster_eq (q : Byte) (old new : List RosterEntry) (s : State) : s.raiseRoster q old new =
    rosterNotice q new (added s.station.address old new) (departed s.station.address old new) s := by
  cases new <;> rfl

/-- The Roll Unit after a retirement of a known roll (R132). -/
theorem retire_some {r : RollUnit} {o : OutstandingRoll} (h : r.outstanding = some o) : r.retire = { r with
    outstanding := none
    retired := if o.sent then some { sequence := o.sequence, stamp := o.stamp, age := 0 } else r.retired } := by
  simp [RollUnit.retire, h]

theorem inPhase_iff (p : RollPhase) (r : RollUnit) : r.inPhase p = true ↔ ∃ o, r.outstanding = some o ∧ o.phase = p := by
  cases h : r.outstanding <;> simp [RollUnit.inPhase, h]

/-- An origination changes the Outbound Queue and the Roll Unit alone, and its roll is not ABANDONED. -/
theorem originate_changes (s : State) (h : s.roll.inPhase .abandoned = false) :
    ∃ fs r, s.originate = { s with outbound := s.outbound ++ fs, roll := r } ∧ r.inPhase .abandoned = false := by
  unfold State.originate
  split
  · exact ⟨[], { s.roll with held := true, timer := none }, by rw [List.append_nil]; rfl, h⟩
  · exact ⟨_, _, rfl, rfl⟩

theorem inPhase_retire (p : RollPhase) (r : RollUnit) : r.retire.inPhase p = false := by
  cases h : r.outstanding <;> simp [RollUnit.retire, RollUnit.inPhase, h]

/-- What follows an own roll's clearing or stripping (R122, R128): the timer in ACTIVE, a new roll where the state allows it. -/
def rollAfresh (s : State) : State :=
  if s.station.state = .active then timerFromZero s else if s.mayOriginate then s.originate else s

theorem rosterClears_eq (s : State) :
    s.rosterClears = if s.roll.inPhase .abandoned then rollAfresh { s with roll := s.roll.retire } else s := rfl

theorem rollAfresh_active {s : State} (h : s.station.state = .active) :
    rollAfresh s = { s with roll := { s.roll with timer := some 0 } } := by rw [rollAfresh, if_pos h, timerFromZero, if_pos h]

theorem rollAfresh_quiet {s : State}
    (h : s.station.state = .leaving ∨ s.station.state = .broken ∨ (s.station.state = .joining ∧ s.ring.linkUp = false)) :
    rollAfresh s = s := by
  rcases h with h | h | ⟨h, hl⟩
  · simp [rollAfresh, State.mayOriginate, h]
  · simp [rollAfresh, State.mayOriginate, h]
  · simp [rollAfresh, State.mayOriginate, h, hl]

theorem rollAfresh_originates {s : State}
    (h : s.station.state = .resync ∨ (s.station.state = .joining ∧ s.ring.linkUp = true)) : rollAfresh s = s.originate := by
  rcases h with h | ⟨h, hl⟩
  · simp [rollAfresh, State.mayOriginate, h]
  · simp [rollAfresh, State.mayOriginate, h, hl]

theorem rollAfresh_changes (s : State) (h : s.roll.inPhase .abandoned = false) :
    ∃ fs r, rollAfresh s = { s with outbound := s.outbound ++ fs, roll := r } ∧ r.inPhase .abandoned = false := by
  by_cases ha : s.station.state = .active
  · exact ⟨[], { s.roll with timer := some 0 }, by rw [rollAfresh_active ha, List.append_nil], h⟩
  · rw [rollAfresh, if_neg ha]
    split
    · exact originate_changes s h
    · exact ⟨[], s.roll, by rw [List.append_nil], h⟩

/-- The clearing of an ABANDONED roll changes the Outbound Queue and the Roll Unit alone, and leaves none ABANDONED (R128). -/
theorem rosterClears_changes (s : State) :
    ∃ fs r, s.rosterClears = { s with outbound := s.outbound ++ fs, roll := r } ∧ r.inPhase .abandoned = false := by
  rw [rosterClears_eq]
  split
  · exact rollAfresh_changes _ (inPhase_retire .abandoned s.roll)
  · rename_i h
    exact ⟨[], s.roll, by rw [List.append_nil], by simpa using h⟩

/-- LEAVING does not end by frames that join the Outbound Queue. -/
theorem leavingDone_of_outbound {s t : State} {fs : List OwnFrame} (h : s.leavingDone = false) (hs : t.station.state = s.station.state)
    (ho : t.outbound = s.outbound ++ fs) (hc : t.claim = s.claim) (hl : t.lease = s.lease) : t.leavingDone = false := by
  have hnil : t.outbound = [] → s.outbound = [] := fun h => (List.append_eq_nil_iff.1 (ho ▸ h)).1
  rw [← Bool.not_eq_true, leavingDone_iff] at h ⊢
  rintro ⟨hs', ho', hc', hl'⟩
  exact h ⟨hs ▸ hs', hnil ho', hc ▸ hc', hl ▸ hl'⟩

theorem leavingDone_rosterClears {s : State} (h : s.leavingDone = false) : s.rosterClears.leavingDone = false := by
  obtain ⟨fs, r, hr, -⟩ := rosterClears_changes s
  rw [hr]; exact leavingDone_of_outbound (fs := fs) h rfl rfl rfl rfl

/-- A ROSTER notice touches the completion queue and NOTICE_LOST alone. -/
theorem rosterNotice_changes (q : Byte) (new : List RosterEntry) (plus minus : List StationAddr) (s : State) :
    ∃ t x, rosterNotice q new plus minus s = { s with table := t, host := x } := by
  unfold rosterNotice State.raiseNotice
  split
  · exact ⟨_, _, rfl⟩
  · split <;> exact ⟨_, _, rfl⟩

theorem timerFromZero_changes (s : State) : ∃ x, timerFromZero s = { s with roll := { s.roll with timer := x } } := by
  unfold timerFromZero
  split <;> exact ⟨_, rfl⟩

/-- The clearing by the phase of the outstanding roll. -/
theorem rosterClears_of_phase {s : State} {o : OutstandingRoll} (ho : s.roll.outstanding = some o) :
    s.rosterClears = if o.phase = .abandoned then rollAfresh { s with roll := s.roll.retire } else s := by
  rw [rosterClears_eq]
  exact ite_congr (propext (by simp [inPhase_iff, ho])) (fun _ => rfl) (fun _ => rfl)

/-- An accepted ROSTER, its notice by the lists of added and departed addresses (R126, R129). -/
theorem acceptRoster_eq (b : RosterBody) (s : State) :
    let self := s.station.address
    let old := s.roll.roster
    let new := rosterOf b.stations
    let zs := reclaimSet self old new
    let r := s.mapLease (LeaseTable.reclaim zs)
    let u := r.reexamine (r.table.offerAll (s.lease.reclaimed zs))
    let v := (rosterNotice b.sequence new (added self old new) (departed self old new)
      { u with roll := { u.roll with roster := new } }).rosterClears
    s.acceptRoster b = if v.roll.outstanding = none ∧ v.roll.held = false then timerFromZero v else v := by
  intro self old new zs r u v
  have hstation : u.station = s.station := (Served.reexamine _ r).station
  have hraise : State.raiseRoster b.sequence old new { u with roll := { u.roll with roster := new } } =
      rosterNotice b.sequence new (added self old new) (departed self old new) { u with roll := { u.roll with roster := new } } := by
    rw [raiseRoster_eq]; simp only [hstation]; rfl
  have hv : v = (State.raiseRoster b.sequence old new { u with roll := { u.roll with roster := new } }).rosterClears := by rw [hraise]
  rw [hv]; rfl

/-- After the examinations an accepted ROSTER changes no more than the completion queue, NOTICE_LOST, the Outbound Queue and the
Roll Unit, which has no ABANDONED roll left (R126, R128). -/
theorem acceptRoster_changes (b : RosterBody) (s : State) :
    let zs := reclaimSet s.station.address s.roll.roster (rosterOf b.stations)
    let r := s.mapLease (LeaseTable.reclaim zs)
    let u := r.reexamine (r.table.offerAll (s.lease.reclaimed zs))
    ∃ t x fs q, s.acceptRoster b = { u with table := t, host := x, outbound := u.outbound ++ fs, roll := q } ∧
      q.inPhase .abandoned = false := by
  intro zs r u
  have haccept := acceptRoster_eq b s
  dsimp only at haccept
  obtain ⟨t, x, hnotice⟩ := rosterNotice_changes b.sequence (rosterOf b.stations)
    (added s.station.address s.roll.roster (rosterOf b.stations)) (departed s.station.address s.roll.roster (rosterOf b.stations))
    { u with roll := { u.roll with roster := rosterOf b.stations } }
  obtain ⟨fs, q, hclears, hq⟩ := rosterClears_changes
    { u with roll := { u.roll with roster := rosterOf b.stations }, table := t, host := x }
  rw [hnotice, hclears] at haccept
  split at haccept
  · obtain ⟨n, hn⟩ := timerFromZero_changes { u with table := t, host := x, outbound := u.outbound ++ fs, roll := q }
    exact ⟨t, x, fs, { q with timer := n }, haccept.trans hn, hq⟩
  · exact ⟨t, x, fs, q, haccept, hq⟩

/-- Examinations bring no reclaimed station back into a record. -/
theorem reclaimed_of_served {zs : List StationAddr} {s u : State} (h : Served (s.mapLease (LeaseTable.reclaim zs)) u) {z : StationAddr}
    (hz : z ∈ zs) (k : Resource) : z ∉ (u.lease.record k).holders ∧ (u.lease.record k).intentOf z = none := by
  obtain ⟨hholders, hintents, -, -⟩ := reclaim_spec zs (s.lease.record k)
  refine ⟨fun hu => ?_, ?_⟩
  · have hr := h.holders k z hu
    rw [State.mapLease_lease, record_reclaim, hholders] at hr
    simp [hz] at hr
  · rw [intentOf_eq_none_iff, h.intents k, State.mapLease_lease, record_reclaim, hintents]
    rintro i hi rfl
    simp [hz] at hi

theorem rosterAcceptable_iff (self : StationAddr) (new : List RosterEntry) : rosterAcceptable self new = true ↔
    self ∈ new.map RosterEntry.address ∧ (new.map RosterEntry.address).Nodup := by
  rw [rosterAcceptable, Bool.and_eq_true, List.contains_iff_mem, decide_eq_true_eq]; rfl

/-- Settles O34: what the ROSTER leaves of the station is followed block by block, and the records by the reclaim. -/
theorem passingRosterReclaims : Obligations.PassingRosterReclaims := by
  refine ⟨?passing, fun self old new z => ?rosters, fun zs l k => ?reclaim, fun s o ho => ?clears⟩
  case passing =>
    intro f b s hf hb a self old new zs good r u v w
    have hquiet : a.leavingDone = false := by simp [a, quiet_of_foreign hf]
    have hgood : (a.listens && rosterAcceptable a.station.address (rosterOf b.stations)) = true ↔ applies s ∧ good := by
      rw [Bool.and_eq_true, listens_iff, rosterAcceptable_iff]
      simp only [a, applies, arrive_station]; rfl
    refine ⟨fun happ hg => ?_, fun hn => ?_⟩
    · have haccept : a.acceptRoster b = w := by
        have haccept := acceptRoster_eq b a
        simp only [a, arrive_station, arrive_roll, arrive_lease] at haccept
        exact haccept
      obtain ⟨t, x, fs, q, hw, hq⟩ : ∃ t x fs q, w = { u with table := t, host := x, outbound := u.outbound ++ fs, roll := q } ∧
          q.inPhase .abandoned = false := by
        have hchanges := acceptRoster_changes b a
        rw [haccept] at hchanges
        simp only [a, arrive_station, arrive_roll, arrive_lease] at hchanges
        exact hchanges
      have hserved : Served r u := Served.reexamine _ r
      have hustation : u.station = s.station := by rw [hserved.station]; simp [r, a]
      have hwquiet : w.leavingDone = false := by
        rw [hw]; exact leavingDone_of_outbound (fs := fs) (hserved.leavingDone hquiet) rfl rfl rfl rfl
      have htake : a.takeForeign f = w.forward f f.body := by
        rw [State.takeForeign, hb]; simp only [State.takeRoster, if_pos (hgood.2 ⟨happ, hg⟩), haccept]
      refine ⟨exec_receipt_foreign hf htake (by rw [leavingDone_forward, hwquiet]), ?_, ?_, fun z hz k => ?_⟩
      · rw [State.forward_roll, hw]; exact hq
      · rw [State.forward_station, hw]; exact hustation
      · rw [State.forward_lease, hw]; exact reclaimed_of_served hserved hz k
    · refine exec_receipt_foreign hf ?_ (by rw [leavingDone_forward]; exact leavingDone_rosterClears hquiet)
      have : ¬ (a.listens && rosterAcceptable a.station.address (rosterOf b.stations)) = true := by
        rw [hgood]; exact fun ⟨happ, hg⟩ => hn.elim (absurd happ) (absurd hg)
      rw [State.takeForeign, hb]; simp only [State.takeRoster, if_neg this, a]
  case rosters =>
    refine ⟨?_, mem_departed .., mem_added .., sorted_filter_finRange _, sorted_filter_finRange _⟩
    rw [reclaimSet, List.mem_append, mem_departed, mem_freshSet]
  case reclaim =>
    intro r t
    have ht : t = r.reclaim zs := record_reclaim zs l k
    obtain ⟨hholders, hintents, hnote, hmode⟩ := reclaim_spec zs r
    rw [ht]
    exact ⟨hholders, hintents, hnote, hmode, fun h => (ResourceRecord.lawful_reclaim zs r h).1.2, rfl, mem_reclaimed zs l k,
      sorted_filter_finRange _⟩
  case clears =>
    have hclears := rosterClears_of_phase ho
    rw [retire_some ho] at hclears
    refine ⟨fun hp => ?_, fun hp hs => ?_, fun hp hs => ?_, fun hp hs => ?_⟩
    · exact hclears.trans (if_neg hp)
    · exact (hclears.trans (if_pos hp)).trans (rollAfresh_active hs)
    · exact (hclears.trans (if_pos hp)).trans (rollAfresh_quiet hs)
    · exact (hclears.trans (if_pos hp)).trans (rollAfresh_originates hs)

end Sys2Proof.LeaseProofs

/-! ## An own roll comes home (O37) -/

namespace Sys2Proof.LeaseProofs
open Sys2Proof.Machine Sys2Proof.Statement

/-! ### The completion of a roll -/

/-- The roster that a completed roll gives (R124). -/
def rollRoster (b : RollBody) : List RosterEntry := b.entries.map (fun e => { address := addressOf e.addr, fresh := freshOf e.addr })

/-- The ROSTER that announces a completed roll (R125). -/
def announcement (b : RollBody) : RosterBody :=
  { sequence := b.sequence, stations := b.entries.map (fun e => addressByte (addressOf e.addr) (freshOf e.addr)) }

/-- The station with the replica rebuilt and reclaimed (R124). -/
def rollRebuilt (b : RollBody) (s : State) : State :=
  { s with
    roll := { s.roll with outstanding := none }
    lease := (s.lease.rebuild s.station.address b.entries).reclaim (reclaimSet s.station.address s.roll.roster (rollRoster b)) }

/-- The station with every resource offered after it (R124). -/
def rollOffered (b : RollBody) (s : State) : State :=
  (rollRebuilt b s).reexamine ((rollRebuilt b s).table.offerAll (List.finRange 64))

/-- The station once its ROSTER is queued and the roster replaced, before the notice (R124). -/
def rollAnnounced (b : RollBody) (s : State) : State :=
  let announced := (rollOffered b s).enqueue (.roster (announcement b)) none
  { announced with roll := { announced.roll with roster := rollRoster b } }

/-- The station after its ROSTER notice (R124, R129). -/
def rollTold (b : RollBody) (s : State) : State :=
  rosterNotice b.sequence (rollRoster b) (added s.station.address s.roll.roster (rollRoster b))
    (departed s.station.address s.roll.roster (rollRoster b)) (rollAnnounced b s)

theorem rosterOf_entries (b : RollBody) : rosterOf (b.entries.map RollEntry.addr) = rollRoster b := by simp [rosterOf, rollRoster]

theorem announcement_eq (b : RollBody) :
    announcement b = { sequence := b.sequence, stations := (rollRoster b).map RosterEntry.byte } := by
  simp [announcement, rollRoster, RosterEntry.byte]

theorem rollAnnounced_changes (b : RollBody) (s : State) : (rollAnnounced b s).station = s.station ∧
    (rollAnnounced b s).roll.outstanding = none ∧ (rollAnnounced b s).roll.roster = rollRoster b ∧
    made s none (.roster (announcement b)) ∈ (rollAnnounced b s).outbound := by
  have hserved := Served.reexamine ((rollRebuilt b s).table.offerAll (List.finRange 64)) (rollRebuilt b s)
  have hstation : (rollOffered b s).station = s.station := hserved.station
  refine ⟨hstation, congrArg RollUnit.outstanding hserved.roll, rfl, ?_⟩
  simp [rollAnnounced, State.enqueue, made, hstation]

/-- What the completion leaves of the station and the Roll Unit, and its ROSTER in the queue. -/
theorem rollTold_changes (b : RollBody) (s : State) : (rollTold b s).station = s.station ∧ (rollTold b s).roll.outstanding = none ∧
    (rollTold b s).roll.roster = rollRoster b ∧ made s none (.roster (announcement b)) ∈ (rollTold b s).outbound := by
  obtain ⟨t, x, hnotice⟩ := rosterNotice_changes b.sequence (rollRoster b) (added s.station.address s.roll.roster (rollRoster b))
    (departed s.station.address s.roll.roster (rollRoster b)) (rollAnnounced b s)
  rw [show rollTold b s = _ from hnotice]
  exact rollAnnounced_changes b s

/-- A completion ends with its report and the roll timer (R124, R143). -/
theorem completeRoll_eq (b : RollBody) (s : State) : s.completeRoll b = timerFromZero (rollTold b s).rollDone := by
  have htold : (rollAnnounced b s).raiseRoster b.sequence s.roll.roster (rollRoster b) = rollTold b s := by
    rw [raiseRoster_eq, (rollAnnounced_changes b s).1]; rfl
  rw [← htold, State.completeRoll]
  simp only [rosterOf_entries, ← announcement_eq]
  rfl

/-- The report of a completed roll in each state: the change to ACTIVE with its notice from JOINING and RESYNC alone (R143). -/
theorem rollDone_eq (s : State) : s.rollDone =
    if s.station.state = .joining ∨ s.station.state = .resync then
      let joined : State := { s with station := { s.station with state := .active } }
      (joined.reexamine joined.table.everyWaiting).raiseNotice (.state .rollDone s.station.state .active)
    else s := by
  have hactive : ∀ w, ((s.enter .active).reexamine w).station.state = .active := fun w => by
    rw [(Served.reexamine w _).station]; rfl
  cases hs : s.station.state with
  | joining => simp only [State.rollDone, hs, State.raiseState, hactive, true_or, if_true]; rfl
  | resync => simp only [State.rollDone, hs, State.raiseState, hactive, or_true, if_true]; rfl
  | _ => simp [State.rollDone, hs]

theorem rollDone_joins {s : State} {st : StationState} (hs : s.station.state = st) (h : st = .joining ∨ st = .resync) :
    let joined : State := { s with station := { s.station with state := .active } }
    s.rollDone = (joined.reexamine joined.table.everyWaiting).raiseNotice (.state .rollDone st .active) := by
  subst hs
  rw [rollDone_eq, if_pos h]

theorem rollDone_stays {s : State} {st : StationState} (hs : s.station.state = st) (h : st = .active ∨ st = .leaving ∨ st = .broken) :
    s.rollDone = s := by
  subst hs
  rw [rollDone_eq, if_neg (by rcases h with h | h | h <;> simp [h])]

/-- The report leaves the Roll Unit, and what waits to be sent. -/
theorem rollDone_changes (s : State) : s.rollDone.roll = s.roll ∧ ∃ fs, s.rollDone.outbound = s.outbound ++ fs := by
  rw [rollDone_eq]
  split
  · have hserved := Served.reexamine s.table.everyWaiting { s with station := { s.station with state := .active } }
    simp only [State.raiseNotice_roll, State.raiseNotice_outbound]
    exact ⟨hserved.roll, hserved.outbound⟩
  · exact ⟨rfl, [], by simp⟩

theorem completeRoll_changes (b : RollBody) (s : State) : (s.completeRoll b).roll.outstanding = none ∧
    (s.completeRoll b).roll.roster = rollRoster b ∧ made s none (.roster (announcement b)) ∈ (s.completeRoll b).outbound := by
  obtain ⟨-, houtstanding, hroster, hmade⟩ := rollTold_changes b s
  obtain ⟨hroll, fs, hfs⟩ := rollDone_changes (rollTold b s)
  obtain ⟨x, hx⟩ := timerFromZero_changes (rollTold b s).rollDone
  rw [completeRoll_eq, hx]
  refine ⟨?_, ?_, ?_⟩
  · rw [← houtstanding, ← hroll]
  · rw [← hroster, ← hroll]
  · rw [hfs]; exact List.mem_append_left _ hmade

/-! ### The rows of R122 -/

/-- A roll is this one (R112). -/
def sameRoll (b : RollBody) (o : OutstandingRoll) : Prop := o.sequence = b.sequence ∧ o.stamp = b.stamp

theorem matchesIn_iff (p : RollPhase) (b : RollBody) (r : RollUnit) :
    r.matchesIn p b = true ↔ ∃ o, r.outstanding = some o ∧ o.phase = p ∧ sameRoll b o := by
  cases h : r.outstanding <;> simp [RollUnit.matchesIn, h, OutstandingRoll.isRoll, sameRoll]

theorem matchesRetired_iff (b : RollBody) (r : RollUnit) :
    r.matchesRetired b = true ↔ ∃ o, r.retired = some o ∧ o.sequence = b.sequence ∧ o.stamp = b.stamp := by
  cases h : r.retired <;> simp [RollUnit.matchesRetired, h]

theorem rollHome_circulating {b : RollBody} {s : State} {o : OutstandingRoll} (ho : s.roll.outstanding = some o)
    (hp : o.phase = .circulating) (hi : sameRoll b o) : s.rollHome b = s.completeRoll b :=
  if_pos ((matchesIn_iff ..).2 ⟨o, ho, hp, hi⟩)

theorem rollHome_abandoned {b : RollBody} {s : State} {o : OutstandingRoll} (ho : s.roll.outstanding = some o)
    (hp : o.phase = .abandoned) (hi : sameRoll b o) : s.rollHome b = rollAfresh { s with roll := { s.roll with outstanding := none } } := by
  have hn : ¬ s.roll.matchesIn .circulating b = true := fun h => by
    obtain ⟨x, hx, hp', -⟩ := (matchesIn_iff ..).1 h
    rw [ho] at hx; cases hx
    rw [hp] at hp'; cases hp'
  rw [State.rollHome, if_neg hn, if_pos ((matchesIn_iff ..).2 ⟨o, ho, hp, hi⟩)]; rfl

theorem rollHome_unmatched {b : RollBody} {s : State} (h : ∀ o, s.roll.outstanding = some o → o.phase = .queued ∨ ¬ sameRoll b o) :
    s.rollHome b = if s.roll.matchesRetired b then { s with roll := { s.roll with retired := none } } else s.duplicateHalt := by
  have hn : ∀ p, p ≠ .queued → ¬ s.roll.matchesIn p b = true := fun p hp hm => by
    obtain ⟨o, ho, hp', hi⟩ := (matchesIn_iff ..).1 hm
    rcases h o ho with hq | hq
    · exact hp (hp'.symm.trans hq)
    · exact hq hi
  rw [State.rollHome, if_neg (hn _ (by decide)), if_neg (hn _ (by decide))]; rfl

@[simp] theorem arrive_forwarding (l : List Byte) (s : State) : (s.arrive l).ring.forwarding = s.ring.forwarding := by
  unfold State.arrive; split <;> rfl
@[simp] theorem arrive_linkUp (l : List Byte) (s : State) : (s.arrive l).ring.linkUp = s.ring.linkUp := by
  unfold State.arrive; split <;> rfl

/-- An own ROLL that is taken goes to the Roll Unit. -/
theorem exec_ownRoll {hop : Byte} {b : RollBody} {s t : State}
    (h : receives (Frame.bytes { origin := s.station.address, hop := hop, body := .roll b }) s) (hw : b.wf = true)
    (ht : (s.arrive (Frame.bytes { origin := s.station.address, hop := hop, body := .roll b })).rollHome b = t)
    (hl : t.leavingDone = false) : exec (.ownRollReturn hop b) s = atOnce s t := by
  have hjudge : State.judgeFrame { origin := s.station.address, hop := hop, body := .roll b }
      (s.arrive (Frame.bytes { origin := s.station.address, hop := hop, body := .roll b })) = t := by
    rw [State.judgeFrame, arrive_station, if_pos rfl, ← ht]; rfl
  rw [exec_ownRollReturn hop b s (inReset_of_receives h), receive_of_receives h hw, hjudge, testLeaving_of_not_done hl]

/-- A halted station neither ends LEAVING nor sends. -/
theorem duplicateHalt_quiet (s : State) : s.duplicateHalt.leavingDone = false ∧ s.duplicateHalt.ring.transmitter = .silent := by
  rw [duplicateHalt_eq, State.raiseNotice_ring]
  refine ⟨?_, rfl⟩
  simp [State.leavingDone, haltedState]

theorem leavingDone_of_mem {s : State} {f : OwnFrame} (h : f ∈ s.outbound) : s.leavingDone = false := by
  simp [State.leavingDone, List.ne_nil_of_mem h]

/-- Settles O37, row by row of R122. -/
theorem ownRollComesHome : Obligations.OwnRollComesHome := by
  intro hop b s hrec hwf hdone f a is retiredIs cleared self old new rebuilt offered announced told joined done
  have hquiet : a.leavingDone = false := by simp [a, hdone]
  have hroll : a.roll = s.roll := arrive_roll ..
  have hstation : a.station = s.station := arrive_station ..
  have hstill : ∀ r, atOnce s { a with roll := r } = .next { a with roll := r } := fun r =>
    congrArg Host.Outcome.next (State.startIdle_quiet _ _ (arrive_outbound ..) (arrive_forwarding ..))
  have hcleared : ({ a with roll := { a.roll with outstanding := none } } : State) = { a with roll := cleared } := by rw [hroll]
  have hrebuilt : rollRebuilt b a = rebuilt := by
    have hof : ∀ (r : RollUnit) (l : LeaseTable) (x : StationController), r = s.roll → l = s.lease → x = s.station →
        ({ a with
          roll := { r with outstanding := none }
          lease := (l.rebuild x.address b.entries).reclaim (reclaimSet x.address r.roster (rollRoster b)) } : State) = rebuilt := by
      rintro _ _ _ rfl rfl rfl; rfl
    exact hof _ _ _ hroll (arrive_lease ..) hstation
  have htold : told = rollTold b a := by rw [rollTold, hroll, hstation, rollAnnounced, rollOffered, hrebuilt]; rfl
  clear_value told
  have htoldState : told.station.state = s.station.state := by rw [htold, (rollTold_changes b a).1, hstation]
  refine ⟨fun o ho hp hi => ?circulating, fun o ho hp hi hs => ?active, fun o ho hp hi hs => ?originates, fun o ho hp hi hs => ?quiet,
    fun hother hret => ?retired, fun hother hret => ?duplicate⟩
  case circulating =>
    obtain ⟨hnone, hroster, hmade⟩ := completeRoll_changes b a
    have hexec : exec (.ownRollReturn hop b) s = atOnce s (timerFromZero told.rollDone) := by
      rw [htold, ← completeRoll_eq]
      exact exec_ownRoll hrec hwf (rollHome_circulating (hroll ▸ ho) hp hi) (leavingDone_of_mem hmade)
    have hmadeHere : made a none (.roster (announcement b)) = made s none (.roster (announcement b)) := by simp only [made, hstation]
    refine ⟨fun hs => ?_, fun hs => ?_, fun hs => ?_, fun hs => ?_, (a.completeRoll b).startIdle s, ?_, ?_, ?_, ?_⟩
    · rw [hexec, rollDone_joins (htoldState.trans hs) (.inl rfl)]
    · rw [hexec, rollDone_joins (htoldState.trans hs) (.inr rfl)]
    · rw [hexec, rollDone_stays (htoldState.trans hs) (.inl rfl)]
    · have hne : told.station.state ≠ .active := by rw [htoldState]; rcases hs with hs | hs <;> simp [hs]
      rw [hexec, rollDone_stays htoldState (.inr hs), timerFromZero, if_neg hne]
    · rw [hexec, htold, ← completeRoll_eq]
    · rw [State.startIdle_roll]; exact hnone
    · rw [State.startIdle_roll]; exact hroster
    · rw [State.startIdle_outbound]; exact hmadeHere ▸ hmade
  case active =>
    have hhome : a.rollHome b = { a with roll := { cleared with timer := some 0 } } := by
      rw [rollHome_abandoned (hroll ▸ ho) hp hi, hcleared]
      exact rollAfresh_active (by rw [← hs, ← hstation])
    exact (exec_ownRoll hrec hwf hhome hquiet).trans (hstill _)
  case originates =>
    have hhome : a.rollHome b = State.originate { a with roll := cleared } := by
      rw [rollHome_abandoned (hroll ▸ ho) hp hi, hcleared]
      exact rollAfresh_originates (by simpa [a] using hs)
    obtain ⟨fs, r, horiginate, -⟩ := originate_changes { a with roll := cleared } rfl
    exact exec_ownRoll hrec hwf hhome (by rw [horiginate]; exact leavingDone_of_outbound (fs := fs) hquiet rfl rfl rfl rfl)
  case quiet =>
    have hhome : a.rollHome b = { a with roll := cleared } := by
      rw [rollHome_abandoned (hroll ▸ ho) hp hi, hcleared]
      exact rollAfresh_quiet (by simpa [a] using hs)
    exact (exec_ownRoll hrec hwf hhome hquiet).trans (hstill _)
  case retired =>
    have hhome : a.rollHome b = { a with roll := { s.roll with retired := none } } := by
      rw [rollHome_unmatched (hroll ▸ hother), if_pos ((matchesRetired_iff ..).2 (hroll ▸ hret)), hroll]
    exact (exec_ownRoll hrec hwf hhome hquiet).trans (hstill _)
  case duplicate =>
    have hhome : a.rollHome b = a.duplicateHalt := by
      rw [rollHome_unmatched (hroll ▸ hother), if_neg (mt (matchesRetired_iff ..).1 (hroll ▸ hret))]
    obtain ⟨hleaving, hsilent⟩ := duplicateHalt_quiet a
    rw [exec_ownRoll hrec hwf hhome hleaving, atOnce, State.startIdle_busy _ _ (by simp [hsilent])]

end Sys2Proof.LeaseProofs

/-! ## The rebuild from a completed roll (O38) -/

namespace Sys2Proof.LeaseProofs
open Sys2Proof.Machine Sys2Proof.Statement

/-! ### Grants in order -/

/-- Grants to one record, in order. -/
def grants (ps : List (StationAddr × Mode)) (r : ResourceRecord) : ResourceRecord := ps.foldl (fun r p => r.grant p.1 p.2) r

theorem grants_append (ps qs : List (StationAddr × Mode)) (r : ResourceRecord) : grants (ps ++ qs) r = grants qs (grants ps r) :=
  List.foldl_append

theorem grants_cons (p : StationAddr × Mode) (ps : List (StationAddr × Mode)) (r : ResourceRecord) :
    grants (p :: ps) r = grants ps (r.grant p.1 p.2) := rfl

@[simp] theorem mode_grant (x : StationAddr) (m : Mode) (r : ResourceRecord) : (r.grant x m).mode = some m := rfl

theorem mem_holders_grant_imp {x z : StationAddr} {m : Mode} {r : ResourceRecord} (h : z ∈ (r.grant x m).holders) :
    z = x ∨ z ∈ r.holders := by
  cases m with
  | exclusive => exact .inl (List.mem_singleton.1 h)
  | shared => exact ((mem_holders_grant_shared x z r).1 h).imp_right And.right

@[simp] theorem note_grants (ps : List (StationAddr × Mode)) (r : ResourceRecord) : (grants ps r).note = r.note := by
  induction ps generalizing r with
  | nil => rfl
  | cons p ps ih => exact ih _

theorem intents_grants {r : ResourceRecord} (ps : List (StationAddr × Mode)) (h : r.intents = []) : (grants ps r).intents = [] := by
  induction ps generalizing r with
  | nil => exact h
  | cons p ps ih => exact ih (by simp [ResourceRecord.grant, ResourceRecord.dropIntent, h])

/-- Every holder after the grants held before, or is granted. -/
theorem mem_holders_grants_imp {ps : List (StationAddr × Mode)} {r : ResourceRecord} {z : StationAddr}
    (h : z ∈ (grants ps r).holders) : z ∈ r.holders ∨ ∃ m, (z, m) ∈ ps := by
  induction ps generalizing r with
  | nil => exact .inl h
  | cons p ps ih =>
    rcases ih h with hz | ⟨m, hm⟩
    · rcases mem_holders_grant_imp hz with rfl | hz
      · exact .inr ⟨p.2, List.mem_cons_self ..⟩
      · exact .inl hz
    · exact .inr ⟨m, List.mem_cons_of_mem _ hm⟩

theorem mode_grants_shared {ps : List (StationAddr × Mode)} (hne : ps ≠ []) (hs : ∀ p ∈ ps, p.2 = .shared) (r : ResourceRecord) :
    (grants ps r).mode = some .shared := by
  induction ps generalizing r with
  | nil => exact absurd rfl hne
  | cons p ps ih =>
    by_cases hps : ps = []
    · rw [hps]
      exact congrArg some (hs p (List.mem_cons_self ..))
    · exact ih hps (fun q hq => hs q (List.mem_cons_of_mem _ hq)) _

/-- SHARED grants stand beside each other, and beside what stood there unless it was EXCLUSIVE (R19). -/
theorem mem_holders_grants_shared {ps : List (StationAddr × Mode)} (hs : ∀ p ∈ ps, p.2 = .shared) {r : ResourceRecord}
    (hm : r.mode ≠ some .exclusive) (z : StationAddr) : z ∈ (grants ps r).holders ↔ z ∈ r.holders ∨ (z, .shared) ∈ ps := by
  induction ps generalizing r with
  | nil => simp [grants]
  | cons p ps ih =>
    obtain ⟨y, m⟩ := p
    obtain rfl : m = .shared := hs (y, m) (List.mem_cons_self ..)
    rw [grants_cons, ih (fun q hq => hs q (List.mem_cons_of_mem _ hq)) (by simp), mem_holders_grant_shared]
    simp only [hm, List.mem_cons, Prod.mk.injEq, and_true, ne_eq, not_false_eq_true, true_and]
    rw [or_assoc, or_left_comm]

/-- After an EXCLUSIVE holder they alone stand. -/
theorem mem_holders_grants_after_exclusive {ps : List (StationAddr × Mode)} (hne : ps ≠ []) (hs : ∀ p ∈ ps, p.2 = .shared)
    {r : ResourceRecord} (hm : r.mode = some .exclusive) (z : StationAddr) : z ∈ (grants ps r).holders ↔ (z, .shared) ∈ ps := by
  cases ps with
  | nil => exact absurd rfl hne
  | cons p ps =>
    obtain ⟨y, m⟩ := p
    obtain rfl : m = .shared := hs (y, m) (List.mem_cons_self ..)
    rw [grants_cons, mem_holders_grants_shared (fun q hq => hs q (List.mem_cons_of_mem _ hq)) (by simp), mem_holders_grant_shared]
    simp [hm]

/-- A station granted alone is the one holder. -/
theorem holders_grants_alone {ps : List (StationAddr × Mode)} {y : StationAddr} (hy : ∀ p ∈ ps, p.1 = y) {r : ResourceRecord}
    (hr : r.holders = [] ∨ r.holders = [y]) (hne : ps ≠ [] ∨ r.holders = [y]) : (grants ps r).holders = [y] := by
  induction ps generalizing r with
  | nil => exact hne.resolve_left (absurd rfl)
  | cons p ps ih =>
    have hgrant : (r.grant p.1 p.2).holders = [y] := by
      rw [hy p (List.mem_cons_self ..)]
      cases p.2 with
      | exclusive => rfl
      | shared =>
        simp only [ResourceRecord.grant]
        split
        · rfl
        · rcases hr with hr | hr <;> simp [hr, insertAddr]
    exact ih (fun q hq => hy q (List.mem_cons_of_mem _ hq)) (.inr hgrant) (.inr hgrant)

/-! ### Pendings in order -/

/-- Pendings recorded in one record, in order: station, mode and sequence. -/
def pends (ps : List (StationAddr × Mode × Byte)) (r : ResourceRecord) : ResourceRecord :=
  ps.foldl (fun r p => r.pend p.1 p.2.1 p.2.2) r

/-- The intent of a pending has age 0 (R21). -/
def pendingIntent (p : StationAddr × Mode × Byte) : Intent := { originator := p.1, mode := p.2.1, sequence := p.2.2, age := 0 }

theorem pend_eq (p : StationAddr × Mode × Byte) (r : ResourceRecord) : r.pend p.1 p.2.1 p.2.2 =
    if p.1 ∈ r.holders then r else { r with intents := insertIntent (pendingIntent p) r.intents } := by
  simp [ResourceRecord.pend, pendingIntent]

theorem pend_keeps (p : StationAddr × Mode × Byte) (r : ResourceRecord) :
    (r.pend p.1 p.2.1 p.2.2).holders = r.holders ∧ (r.pend p.1 p.2.1 p.2.2).mode = r.mode ∧
      (r.pend p.1 p.2.1 p.2.2).note = r.note := by
  rw [pend_eq]
  split <;> exact ⟨rfl, rfl, rfl⟩

theorem pends_keeps (ps : List (StationAddr × Mode × Byte)) (r : ResourceRecord) :
    (pends ps r).holders = r.holders ∧ (pends ps r).mode = r.mode ∧ (pends ps r).note = r.note := by
  induction ps generalizing r with
  | nil => exact ⟨rfl, rfl, rfl⟩
  | cons p ps ih =>
    obtain ⟨hh, hm, hn⟩ := pend_keeps p r
    obtain ⟨hh', hm', hn'⟩ := ih (r.pend p.1 p.2.1 p.2.2)
    exact ⟨hh'.trans hh, hm'.trans hm, hn'.trans hn⟩

/-- Every intent after the pendings stood before, or is a pending's whose station does not hold. -/
theorem mem_intents_pends_imp {ps : List (StationAddr × Mode × Byte)} {r : ResourceRecord} {i : Intent}
    (h : i ∈ (pends ps r).intents) : i ∈ r.intents ∨ ∃ p ∈ ps, i = pendingIntent p ∧ p.1 ∉ r.holders := by
  induction ps generalizing r with
  | nil => exact .inl h
  | cons p ps ih =>
    rcases ih (r := r.pend p.1 p.2.1 p.2.2) h with hi | ⟨q, hq, hi, hn⟩
    · rw [pend_eq] at hi
      split at hi
      · exact .inl hi
      · rename_i hp
        rcases mem_insertIntent_imp _ _ _ hi with hi | hi
        · exact .inr ⟨p, List.mem_cons_self .., hi, hp⟩
        · exact .inl hi
    · rw [(pend_keeps p r).1] at hn
      exact .inr ⟨q, List.mem_cons_of_mem _ hq, hi, hn⟩

/-- A joining intent keeps the set of originators, but for its own. -/
theorem mem_originators_insertIntent {i : Intent} {l : List Intent} {y : StationAddr} (h : y ∈ l.map Intent.originator) :
    y ∈ (insertIntent i l).map Intent.originator := by
  induction l with
  | nil => cases h
  | cons a l ih =>
    rw [List.map_cons, List.mem_cons] at h
    simp only [insertIntent]
    split
    · rw [List.map_cons, List.mem_cons, List.map_cons, List.mem_cons]; exact .inr h
    · split
      · rename_i hia
        rw [List.map_cons, List.mem_cons, hia]; exact h
      · rw [List.map_cons, List.mem_cons]; exact h.imp_right ih

theorem mem_originators_pends {ps : List (StationAddr × Mode × Byte)} {r : ResourceRecord} {y : StationAddr}
    (h : y ∈ r.intents.map Intent.originator ∨ (y ∉ r.holders ∧ ∃ p ∈ ps, p.1 = y)) : y ∈ (pends ps r).intents.map Intent.originator := by
  induction ps generalizing r with
  | nil =>
    rcases h with h | ⟨-, p, hp, -⟩
    · exact h
    · cases hp
  | cons p ps ih =>
    have hkept : y ∈ r.intents.map Intent.originator → y ∈ (r.pend p.1 p.2.1 p.2.2).intents.map Intent.originator := fun h => by
      rw [pend_eq]
      split
      · exact h
      · exact mem_originators_insertIntent h
    refine ih (r := r.pend p.1 p.2.1 p.2.2) ?_
    rw [(pend_keeps p r).1]
    rcases h with h | ⟨hn, q, hq, rfl⟩
    · exact .inl (hkept h)
    · rcases List.mem_cons.1 hq with rfl | hq
      · refine .inl ?_
        rw [pend_eq, if_neg hn]
        exact List.mem_map.2 ⟨_, mem_insertIntent _ _, rfl⟩
      · exact .inr ⟨hn, q, hq, rfl⟩

/-! ### The rebuild of one record -/

/-- The holds that a roll lists of a resource, in the order in which the rebuild applies them: this station's HELD entries, then
those of the other stations' entries (R19, R20). -/
def listedHolds (self : StationAddr) (es : List RollEntry) (l : LeaseTable) (k : Resource) : List (StationAddr × Mode) :=
  (l.holds.filter (fun e => decide (e.phase = .held ∧ e.resource = k))).map (fun e => (self, e.mode)) ++
    (es.filter (fun e => decide (addressOf e.addr ≠ self))).flatMap (fun e =>
      (e.holds.filter (fun b => decide (resourceOf b = k))).map (fun b => (addressOf e.addr, holdByteMode b)))

/-- The pendings that a roll lists of a resource (R21). -/
def listedPendings (self : StationAddr) (es : List RollEntry) (k : Resource) : List (StationAddr × Mode × Byte) :=
  (es.filter (fun e => decide (addressOf e.addr ≠ self))).flatMap (fun e =>
    (e.pendings.filter (fun p => decide (resourceOf p.1 = k))).map (fun p => (addressOf e.addr, holdByteMode p.1, p.2)))

theorem record_grantAll (y : StationAddr) (hs : List (Resource × Mode)) (l : LeaseTable) (k : Resource) :
    (l.grantAll y hs).record k = grants ((hs.filter (fun h => decide (h.1 = k))).map (fun h => (y, h.2))) (l.record k) := by
  unfold LeaseTable.grantAll
  induction hs generalizing l with
  | nil => rfl
  | cons h hs ih =>
    rw [List.foldl_cons, ih, LeaseTable.record_modify]
    by_cases hk : h.1 = k
    · subst hk
      rw [if_pos rfl, List.filter_cons_of_pos (by simp)]; rfl
    · rw [if_neg hk, List.filter_cons_of_neg (by simpa using hk)]

theorem record_pendAll (y : StationAddr) (ps : List (Byte × Byte)) (l : LeaseTable) (k : Resource) :
    (l.pendAll y ps).record k =
      pends ((ps.filter (fun p => decide (resourceOf p.1 = k))).map (fun p => (y, holdByteMode p.1, p.2))) (l.record k) := by
  unfold LeaseTable.pendAll
  induction ps generalizing l with
  | nil => rfl
  | cons p ps ih =>
    rw [List.foldl_cons, ih, LeaseTable.record_modify]
    by_cases hk : resourceOf p.1 = k
    · subst hk
      rw [if_pos rfl, List.filter_cons_of_pos (by simp)]; rfl
    · rw [if_neg hk, List.filter_cons_of_neg (by simpa using hk)]

/-- What the entries do to one record, one after the other, is done by the list of all of it. -/
theorem record_foldl {α β : Type} (g : LeaseTable → α → LeaseTable) (f : ResourceRecord → β → ResourceRecord) (bs : α → List β)
    (k : Resource) (hg : ∀ l a, (g l a).record k = (bs a).foldl f (l.record k)) (as : List α) (l : LeaseTable) :
    (as.foldl g l).record k = (as.flatMap bs).foldl f (l.record k) := by
  induction as generalizing l with
  | nil => rfl
  | cons a as ih => rw [List.foldl_cons, ih, hg, List.flatMap_cons, List.foldl_append]

/-- A rebuilt record: its holders and intents cleared, then the listed holds granted and the listed pendings recorded. -/
theorem record_rebuild (self : StationAddr) (es : List RollEntry) (l : LeaseTable) (k : Resource) :
    (l.rebuild self es).record k = pends (listedPendings self es k) (grants (listedHolds self es l k) (l.record k).cleared) := by
  have hown : (l.heldPairs.filter (fun h => decide (h.1 = k))).map (fun h => (self, h.2)) =
      (l.holds.filter (fun e => decide (e.phase = .held ∧ e.resource = k))).map (fun e => (self, e.mode)) := by
    simp [LeaseTable.heldPairs, List.filter_map, List.filter_filter, Function.comp_def, Bool.and_comm]
  unfold LeaseTable.rebuild
  dsimp only
  rw [record_foldl _ (fun r p => r.pend p.1 p.2.1 p.2.2)
      (fun e : RollEntry => (e.pendings.filter (fun p => decide (resourceOf p.1 = k))).map (fun p => (addressOf e.addr, holdByteMode p.1, p.2)))
      k (fun l e => record_pendAll ..),
    record_foldl _ (fun r p => r.grant p.1 p.2)
      (fun e : RollEntry => (e.holds.filter (fun b => decide (resourceOf b = k))).map (fun b => (addressOf e.addr, holdByteMode b)))
      k (fun l e => (record_grantAll ..).trans (by simp [grants, List.filter_map, Function.comp_def])),
    record_grantAll, hown, LeaseTable.record_mapRecords, listedHolds, grants_append]
  rfl

theorem mem_listedHolds (self : StationAddr) (es : List RollEntry) (l : LeaseTable) (k : Resource) (y : StationAddr) (m : Mode) :
    (y, m) ∈ listedHolds self es l k ↔ (y = self ∧ ∃ e, (e ∈ l.holds ∧ e.phase = .held ∧ e.resource = k) ∧ e.mode = m) ∨
      ∃ e ∈ es, addressOf e.addr = y ∧ y ≠ self ∧ ∃ b ∈ e.holds, resourceOf b = k ∧ holdByteMode b = m := by
  simp only [listedHolds, List.mem_append, List.mem_map, List.mem_filter, List.mem_flatMap, decide_eq_true_eq, Prod.mk.injEq]
  refine or_congr ⟨?_, ?_⟩ (exists_congr fun e => ⟨?_, ?_⟩)
  · rintro ⟨e, he, rfl, rfl⟩; exact ⟨rfl, e, he, rfl⟩
  · rintro ⟨rfl, e, he, rfl⟩; exact ⟨e, he, rfl, rfl⟩
  · rintro ⟨⟨he, hn⟩, b, ⟨hb, hk⟩, rfl, rfl⟩; exact ⟨he, rfl, hn, b, hb, hk, rfl⟩
  · rintro ⟨he, rfl, hn, b, hb, hk, rfl⟩; exact ⟨⟨he, hn⟩, b, ⟨hb, hk⟩, rfl, rfl⟩

theorem mem_listedPendings (self : StationAddr) (es : List RollEntry) (k : Resource) (q : StationAddr × Mode × Byte) :
    q ∈ listedPendings self es k ↔ ∃ e ∈ es, addressOf e.addr = q.1 ∧ q.1 ≠ self ∧
      ∃ p ∈ e.pendings, resourceOf p.1 = k ∧ holdByteMode p.1 = q.2.1 ∧ p.2 = q.2.2 := by
  obtain ⟨y, m, n⟩ := q
  simp only [listedPendings, List.mem_map, List.mem_filter, List.mem_flatMap, decide_eq_true_eq, Prod.mk.injEq]
  refine exists_congr fun e => ⟨?_, ?_⟩
  · rintro ⟨⟨he, hn⟩, p, ⟨hp, hk⟩, rfl, rfl, rfl⟩; exact ⟨he, rfl, hn, p, hp, hk, rfl, rfl⟩
  · rintro ⟨he, rfl, hn, p, hp, hk, rfl, rfl⟩; exact ⟨⟨he, hn⟩, p, ⟨hp, hk⟩, rfl, rfl, rfl⟩

/-- Settles O38: a rebuilt record is the fold of the listed holds and pendings. -/
theorem rebuildShowsTheRoll : Obligations.RebuildShowsTheRoll := by
  intro self es l k t own listed applied
  let base := (l.record k).cleared
  have hlisted : ∀ y m, listed y m ↔ (y, m) ∈ applied := fun y m => (mem_listedHolds self es l k y m).symm
  have hrecord : t.record k = pends (listedPendings self es k) (grants applied base) := record_rebuild self es l k
  obtain ⟨hholders, hmode, hnote⟩ := pends_keeps (listedPendings self es k) (grants applied base)
  rw [← hrecord] at hholders hmode hnote
  have hintents : (grants applied base).intents = [] := intents_grants applied rfl
  rw [hholders, hmode]
  refine ⟨fun h => ?none, fun before y h => ?lastExclusive, fun before y later h hne hs => ?sharedAfter,
    fun hne hs => mode_grants_shared hne hs base, LeaseTable.holds_rebuild .., hnote.trans (note_grants ..), fun y hy => ?holder,
    fun hs y => ?allShared, fun y hy hall => ?alone, fun i hi => ?intent, fun e he hn hh p hp hk => ?pending⟩
  case none => rw [h]; exact ⟨rfl, rfl⟩
  case lastExclusive => rw [h, grants_append]; exact ⟨rfl, rfl⟩
  case sharedAfter =>
    rw [h, grants_append, grants_cons]
    exact ⟨mode_grants_shared hne hs _, mem_holders_grants_after_exclusive hne hs rfl⟩
  case holder =>
    obtain ⟨m, hm⟩ := (mem_holders_grants_imp hy).resolve_left List.not_mem_nil
    exact ⟨m, (hlisted y m).2 hm⟩
  case allShared =>
    have hshared : ∀ p ∈ applied, p.2 = .shared := fun p hp => by
      rw [← mode_ne_exclusive]
      intro hx
      exact hs p.1 ((hlisted _ _).2 (hx ▸ hp))
    rw [mem_holders_grants_shared hshared (r := base) (by simp [base, ResourceRecord.cleared]), hlisted]
    simp [base, ResourceRecord.cleared]
  case alone =>
    obtain ⟨m, hm⟩ := hy
    exact holders_grants_alone (fun p hp => hall p.1 p.2 ((hlisted ..).2 hp)) (.inl rfl) (.inl (List.ne_nil_of_mem ((hlisted ..).1 hm)))
  case intent =>
    rw [hrecord] at hi
    obtain ⟨q, hq, rfl, hn⟩ := (mem_intents_pends_imp hi).resolve_left (by simp [hintents])
    exact ⟨rfl, hn, (mem_listedPendings self es k q).1 hq⟩
  case pending =>
    have hq : (addressOf e.addr, holdByteMode p.1, p.2) ∈ listedPendings self es k :=
      (mem_listedPendings ..).2 ⟨e, he, rfl, hn, p, hp, hk, rfl, rfl⟩
    rw [hrecord]
    exact List.mem_map.1 (mem_originators_pends (.inr ⟨hh, _, hq, rfl⟩))

end Sys2Proof.LeaseProofs

/-! ## The passing of time (O2) -/

namespace Sys2Proof.LeaseProofs
open Sys2Proof.Machine Sys2Proof.Statement

/-! ### What is due -/

/-- A search for a due event finds one of a property, and where it finds none there is none. -/
def Shows (d : Option Instr) (P : Instr → Prop) : Prop := (∀ c, d = some c → P c) ∧ (d = none → ∀ c, ¬ P c)

theorem Shows.congr {d : Option Instr} {P Q : Instr → Prop} (h : Shows d P) (hpq : ∀ c, P c ↔ Q c) : Shows d Q :=
  ⟨fun c hc => (hpq c).1 (h.1 c hc), fun hn c hc => h.2 hn c ((hpq c).2 hc)⟩

/-- A search that names its event exactly. -/
theorem Shows.of_iff {d : Option Instr} {P : Instr → Prop} (h : ∀ c, d = some c ↔ P c) : Shows d P :=
  ⟨fun c hc => (h c).1 hc, fun hn c hc => by rw [(h c).2 hc] at hn; cases hn⟩

theorem Shows.nil : Shows (List.findSome? id []) (fun _ => False) := ⟨fun _ hc => (nomatch hc), fun _ _ => id⟩

theorem Shows.cons {d : Option Instr} {ds : List (Option Instr)} {P Q : Instr → Prop} (h : Shows d P) (g : Shows (ds.findSome? id) Q) :
    Shows ((d :: ds).findSome? id) (fun c => P c ∨ Q c) := by
  cases d with
  | none => exact g.congr fun c => ⟨.inr, fun hc => hc.resolve_left (h.2 rfl c)⟩
  | some a => exact ⟨fun c hc => .inl (h.1 c hc), fun hn => (nomatch hn)⟩

theorem shows_dueIf {b : Bool} {A : Prop} (i : Instr) (h : b = true ↔ A) : Shows (dueIf b i) (fun c => A ∧ c = i) := by
  refine .of_iff fun c => ?_
  rw [← h, dueIf]
  cases b <;> simp [eq_comm]

theorem choiceDue_iff (s : State) : s.choiceDue = true ↔ s.ring.transmitter = .gap 0 ∨
    (s.ring.transmitter = .idle ∧ (s.outbound ≠ [] ∨ s.ring.forwarding ≠ [])) := by
  cases h : s.ring.transmitter <;> simp [State.choiceDue, State.noFrame, h]

theorem receiptDue_iff (s : State) (c : Instr) : s.receiptDue = some c ↔
    ∃ a rest, s.ring.processing = a :: rest ∧ a.left = 0 ∧ c = receiptOf s.station.address a.bytes := by
  cases h : s.ring.processing <;> simp [State.receiptDue, h, eq_comm]

theorem sentRow_eq (b : Body) : sentRow b = reportOf b := by cases b <;> rfl

theorem sentDue_iff (s : State) (c : Instr) : s.sentDue = some c ↔ ∃ n f rest,
    s.ring.transmitter = .sendingOwn n ∧ s.outbound = f :: rest ∧ f.frame.length < n ∧ c = reportOf f.frame.body := by
  cases h : s.ring.transmitter with
  | sendingOwn n => cases g : s.outbound <;> simp [State.sentDue, h, g, sentRow_eq, eq_comm]
  | _ => simp [State.sentDue, h]

theorem le_getD_iff {m : Nat} (hm : 0 < m) (o : Option Nat) : m ≤ o.getD 0 ↔ ∃ n, o = some n ∧ m ≤ n := by
  cases o with
  | none => simpa using Nat.pos_iff_ne_zero.1 hm
  | some n => simp

theorem shows_linkDue (s : State) : Shows s.linkDue (fun c =>
    ((∃ n, s.ring.lossTimer = some n ∧ 200 ≤ n) ∧ c = .linkDown) ∨ ((∃ n, s.ring.settleTimer = some n ∧ 1000 ≤ n) ∧ c = .linkUp)) := by
  have hloss := le_getD_iff (m := 200) (by decide) s.ring.lossTimer
  have hsettle := le_getD_iff (m := 1000) (by decide) s.ring.settleTimer
  by_cases h : Config.losCharacters ≤ s.ring.lossTimer.getD 0
  · rw [State.linkDue, if_pos h]
    exact ⟨fun c hc => .inl ⟨hloss.1 h, (Option.some.inj hc).symm⟩, fun hn => (nomatch hn)⟩
  · by_cases g : Config.upCharacters ≤ s.ring.settleTimer.getD 0
    · rw [State.linkDue, if_neg h, if_pos g]
      exact ⟨fun c hc => .inr ⟨hsettle.1 g, (Option.some.inj hc).symm⟩, fun hn => (nomatch hn)⟩
    · rw [State.linkDue, if_neg h, if_neg g]
      refine ⟨fun c hc => (nomatch hc), fun _ c hc => ?_⟩
      rcases hc with ⟨hc, -⟩ | ⟨hc, -⟩
      · exact h (hloss.2 hc)
      · exact g (hsettle.2 hc)

/-! The configured times (R137, R209). -/

theorem reached_tCTO_iff (s : State) (n : Nat) : reached s.tCTO n = true ↔
    ∃ cf, s.station.config = some cf ∧ cf.units.toNat * 100 ≤ n := by
  cases h : s.station.config with
  | none => simp [State.tCTO, h, reached]
  | some cf => simp [tCTO_of_config h, reached]

theorem reached_tIAGE_iff (s : State) (n : Nat) : reached s.tIAGE n = true ↔
    ∃ cf, s.station.config = some cf ∧ 2 * (cf.units.toNat * 100) ≤ n := by
  cases h : s.station.config with
  | none => simp [State.tIAGE, State.tCTO, h, reached]
  | some cf => simp [tIAGE_of_config h, reached]

theorem reached_tRCT_iff (s : State) (n : Nat) : reached s.tRCT n = true ↔
    ∃ cf, s.station.config = some cf ∧ 3 * (cf.units.toNat * 100) ≤ n := by
  cases h : s.station.config with
  | none => simp [State.tRCT, State.tCTO, h, reached]
  | some cf => simp [State.tRCT, tCTO_of_config h, reached]

theorem reached_rollPeriod_iff (s : State) (n : Nat) : reached s.rollPeriod n = true ↔ ∃ cf, s.station.config = some cf ∧
    (cf.interval.toNat * 1000 + s.station.address.val * (cf.units.toNat * 10)) * 10 ≤ n := by
  cases h : s.station.config <;> simp [State.rollPeriod, h, reached, Config.charactersPerMicro]

/-- The first element of a test, named, is an element of it. -/
theorem shows_find? {α : Type} (p : α → Bool) (f : α → Instr) (l : List α) :
    Shows ((l.find? p).map f) (fun c => ∃ a ∈ l, p a = true ∧ c = f a) := by
  refine ⟨fun c hc => ?_, fun hn c => ?_⟩
  · obtain ⟨a, ha, rfl⟩ := Option.map_eq_some_iff.1 hc
    exact ⟨a, List.mem_of_find?_eq_some ha, List.find?_some ha, rfl⟩
  · rintro ⟨a, ha, hp, -⟩
    exact List.find?_eq_none.1 (Option.map_eq_none_iff.1 hn) a ha hp

theorem shows_findSome? {α : Type} (g : α → Option Instr) (P : α → Instr → Prop) (l : List α) (h : ∀ a, Shows (g a) (P a)) :
    Shows (l.findSome? g) (fun c => ∃ a ∈ l, P a c) := by
  refine ⟨fun c hc => ?_, fun hn c => ?_⟩
  · obtain ⟨a, ha, hg⟩ := List.exists_of_findSome?_eq_some hc
    exact ⟨a, ha, (h a).1 c hg⟩
  · rintro ⟨a, ha, hp⟩
    exact (h a).2 (List.findSome?_eq_none_iff.1 hn a ha) c hp

theorem shows_circuitDue (s : State) : Shows s.circuitDue (fun c => ∃ cf e, s.station.config = some cf ∧ e ∈ s.claim.claims ∧
    e.phase = .circulating ∧ cf.units.toNat * 100 ≤ e.timer ∧ c = .circuitTimeout e.sequence) := by
  refine (shows_find? _ _ _).congr fun c => ?_
  simp only [ClaimEntry.timedOut, Bool.and_eq_true, decide_eq_true_eq, reached_tCTO_iff, and_true]
  constructor
  · rintro ⟨e, he, ⟨hp, cf, hcf, ht⟩, hc⟩; exact ⟨cf, e, hcf, he, hp, ht, hc⟩
  · rintro ⟨cf, e, hcf, he, hp, ht, hc⟩; exact ⟨e, he, ⟨hp, cf, hcf, ht⟩, hc⟩

theorem shows_intentDue (s : State) : Shows s.intentDue (fun c => ∃ cf k i, s.station.config = some cf ∧
    i ∈ (s.lease.record k).intents ∧ 2 * (cf.units.toNat * 100) ≤ i.age ∧ c = .intentExpiry k i.originator) := by
  refine (shows_findSome? _ _ _ (fun k => shows_find? _ _ _)).congr fun c => ?_
  simp only [reached_tIAGE_iff, List.mem_finRange, true_and]
  constructor
  · rintro ⟨k, i, hi, ⟨cf, hcf, ha⟩, hc⟩; exact ⟨cf, k, i, hcf, hi, ha, hc⟩
  · rintro ⟨cf, k, i, hcf, hi, ha, hc⟩; exact ⟨k, i, hi, ⟨cf, hcf, ha⟩, hc⟩

theorem rollTimerDue_iff (s : State) : (s.rollTimerDue && decide (s.station.state = .active) && s.roll.outstanding.isNone) = true ↔
    ∃ cf n, s.station.config = some cf ∧ s.roll.timer = some n ∧
      (cf.interval.toNat * 1000 + s.station.address.val * (cf.units.toNat * 10)) * 10 ≤ n ∧
      s.station.state = .active ∧ s.roll.outstanding = none := by
  cases h : s.roll.timer with
  | none => simp [State.rollTimerDue, h]
  | some n =>
    simp only [State.rollTimerDue, h, Bool.and_eq_true, decide_eq_true_eq, Option.isNone_iff_eq_none, reached_rollPeriod_iff,
      Option.some.injEq]
    constructor
    · rintro ⟨⟨⟨cf, hcf, hn⟩, hs⟩, ho⟩; exact ⟨cf, n, hcf, rfl, hn, hs, ho⟩
    · rintro ⟨cf, n, hcf, rfl, hn, hs, ho⟩; exact ⟨⟨⟨cf, hcf, hn⟩, hs⟩, ho⟩

theorem aged_iff (p : RollPhase) (s : State) : s.roll.aged p s.tRCT = true ↔ ∃ cf o, s.station.config = some cf ∧
    s.roll.outstanding = some o ∧ 3 * (cf.units.toNat * 100) ≤ o.age ∧ o.phase = p := by
  cases h : s.roll.outstanding with
  | none => simp [RollUnit.aged, h]
  | some o =>
    simp only [RollUnit.aged, h, Bool.and_eq_true, decide_eq_true_eq, reached_tRCT_iff, Option.some.injEq]
    constructor
    · rintro ⟨hp, cf, hcf, ha⟩; exact ⟨cf, o, hcf, rfl, ha, hp⟩
    · rintro ⟨cf, o, hcf, rfl, ha, hp⟩; exact ⟨hp, cf, hcf, ha⟩

theorem retiredDue_iff (s : State) : s.retiredDue = true ↔ ∃ cf o, s.station.config = some cf ∧ s.roll.retired = some o ∧
    3 * (cf.units.toNat * 100) ≤ o.age := by
  cases h : s.roll.retired with
  | none => simp [State.retiredDue, h]
  | some o =>
    simp only [State.retiredDue, h, reached_tRCT_iff, Option.some.injEq]
    constructor
    · rintro ⟨cf, hcf, ha⟩; exact ⟨cf, o, hcf, rfl, ha⟩
    · rintro ⟨cf, o, hcf, rfl, ha⟩; exact ⟨cf, hcf, ha⟩

theorem probeDue_iff (s : State) : s.probeDue = true ↔ s.probe.phase = .out ∧ 65535 ≤ s.probe.timer := by
  rw [State.probeDue, Bool.and_eq_true, decide_eq_true_iff, decide_eq_true_iff]; rfl

theorem heldDue_iff (s : State) : (s.roll.held && !s.rosterWaits) = true ↔ s.roll.held = true ∧ s.rosterWaits = false := by
  rw [Bool.and_eq_true, Bool.not_eq_true']

theorem slotPosting_iff (t : RequestTable) : (!t.posting.isEmpty && t.admits) = true ↔
    t.posting ≠ [] ∧ t.completions < 14 ∧ t.queue.length < 16 := by
  rw [Bool.and_eq_true, RequestTable.admits_iff]
  simp

/-- The search for a due event finds one of those that the rules name, and misses none. -/
theorem shows_nextDue (s : State) : Shows s.nextDue (isDue s) := by
  refine (((shows_dueIf _ (choiceDue_iff s)).congr fun c => and_comm).cons ((Shows.of_iff (receiptDue_iff s)).cons ((Shows.of_iff (sentDue_iff s)).cons
    ((shows_linkDue s).cons ((shows_circuitDue s).cons ((shows_intentDue s).cons ((shows_dueIf _ (rollTimerDue_iff s)).cons
    ((shows_dueIf _ (aged_iff .circulating s)).cons ((shows_dueIf _ (aged_iff .abandoned s)).cons
    ((shows_dueIf _ (retiredDue_iff s)).cons ((shows_dueIf _ (probeDue_iff s)).cons ((shows_dueIf _ (heldDue_iff s)).cons
    ((shows_dueIf _ (leavingDone_iff s)).cons ((shows_dueIf _ (slotPosting_iff s.table)).cons .nil)))))))))))))).congr fun c => ?_
  simp only [isDue, and_or_left, exists_or, or_assoc, ← exists_and_right, and_assoc, or_false]

/-! ### The step with no command waiting -/

theorem step_idle {s : State} (h : s.pending = []) : step s = .next s.idleStep := by
  unfold step
  rw [h]

theorem idleStep_inReset {s : State} (h : s.inReset = true) : s.idleStep = s.resetStep := if_pos h

theorem idleStep_due {s : State} {c : Instr} (h : s.inReset = false) (hp : s.pending = []) (hc : s.nextDue = some c) :
    s.idleStep = { s with pending := [c] } := by
  simp [State.idleStep, h, hc, hp]

theorem idleStep_quiet {s : State} (h : s.inReset = false) (hc : s.nextDue = none) : s.idleStep = s.characterTime := by
  simp [State.idleStep, h, hc]

/-! ### The timers in a character time -/

theorem tick_claim (e : ClaimEntry) : e.tick = if e.phase = .circulating then { e with timer := e.timer + 1 } else e := by
  cases h : e.phase <;> simp [ClaimEntry.tick, h]

theorem tick_outstanding (o : OutstandingRoll) : o.tick = if o.phase = .queued then o else { o with age := o.age + 1 } := by
  cases h : o.phase <;> simp [OutstandingRoll.tick, h]

/-- The microsecond counter and the probe timer in a character time (R138, R178). -/
theorem characterTime_micros (s : State) :
    (s.station.subMicro + 1 < 10 → s.characterTime.probe = s.probe ∧
      s.characterTime.station = { s.station with subMicro := s.station.subMicro + 1 }) ∧
    (¬ s.station.subMicro + 1 < 10 → s.characterTime.probe = s.probe.tick ∧
      s.characterTime.station = { s.station with subMicro := 0, micros := s.station.micros + 1 }) := by
  obtain ⟨r, hr⟩ := State.characterTime_changes s
  rw [hr]
  refine ⟨fun h => ?_, fun h => ?_⟩
  · have ht : s.tickMicro = { s with station := { s.station with subMicro := s.station.subMicro + 1 } } := if_pos h
    rw [ht]; exact ⟨rfl, rfl⟩
  · have ht : s.tickMicro = { s with
        station := { s.station with micros := s.station.micros + 1, subMicro := 0 }, probe := s.probe.tick } := if_neg h
    rw [ht]; exact ⟨rfl, rfl⟩

theorem tick_probe (p : ProbeUnit) : (p.phase = .out → p.tick = { p with timer := p.timer + 1 }) ∧ (p.phase ≠ .out → p.tick = p) := by
  cases h : p.phase <;> simp [ProbeUnit.tick, h]

/-! ### The transmitter in a character time -/

/-- The sending half of the Ring Port after a character time is that of the transmitter's character. -/
theorem characterTime_sends (s : State) : ∃ v : State, v.ring.transmitter = s.ring.transmitter ∧ v.ring.forwarding = s.ring.forwarding ∧
    v.outbound = s.outbound ∧ s.characterTime.ring.txLine = v.transmitChar.ring.txLine ∧
    s.characterTime.ring.transmitter = v.transmitChar.ring.transmitter ∧
    s.characterTime.ring.forwarding = v.transmitChar.ring.forwarding := by
  obtain ⟨hring, hout, -, -⟩ := State.transmitter_ticked s
  obtain ⟨d, e, f, g, i, hreceive⟩ := State.receiveChar_changes s.tickCharacter.countProcessing.transmitChar
  refine ⟨s.tickCharacter.countProcessing, ?_, ?_, hout, ?_, ?_, ?_⟩
  · rw [hring]
  · rw [hring]
  · rw [State.characterTime, hreceive]
  · rw [State.characterTime, hreceive]
  · rw [State.characterTime, hreceive]

/-- What the transmitter's character leaves: the character on the line, the next condition and the forwarding queue. -/
def Sends (s : State) (c : LinkChar) (x : Transmitter) (fs : List Frame) : Prop :=
  s.ring.txLine = c ∧ s.ring.transmitter = x ∧ s.ring.forwarding = fs

theorem sends_sendChar (c : LinkChar) (x : Transmitter) (s : State) : Sends (s.sendChar c x) c x s.ring.forwarding := ⟨rfl, rfl, rfl⟩

theorem transmitChar_own {s : State} {f : OwnFrame} {rest : List OwnFrame} {n : Nat} (h : s.ring.transmitter = .sendingOwn n)
    (ho : s.outbound = f :: rest) : Sends s.transmitChar (frameChar f.frame n) (.sendingOwn (n + 1)) s.ring.forwarding := by
  simp only [State.transmitChar, h, ho]
  exact sends_sendChar ..

/-- The last byte of a forwarded frame takes it from the queue (R168). -/
theorem transmitChar_forwarded {s : State} {f : Frame} {rest : List Frame} {n : Nat} (h : s.ring.transmitter = .sendingForwarded n)
    (hf : s.ring.forwarding = f :: rest) :
    (n ≠ f.length → Sends s.transmitChar (frameChar f n) (.sendingForwarded (n + 1)) s.ring.forwarding) ∧
    (n = f.length → Sends s.transmitChar (frameChar f n) .endDue rest) := by
  simp only [State.transmitChar, h, hf]
  refine ⟨fun hn => ?_, fun hn => ?_⟩
  · rw [if_neg hn, ← hf]; exact sends_sendChar ..
  · rw [if_pos hn]; exact ⟨rfl, rfl, congrArg List.tail hf⟩

theorem frame_length_pos (f : Frame) : 0 < f.length := by
  unfold Frame.length; omega

/-- Settles O2: the search finds what is due, and a character time is taken apart into its timers and its transmitter. -/
theorem idleStepPassesTime : Obligations.IdleStepPassesTime := by
  refine ⟨fun s hp => ?step, fun s _ => ?micros, fun s => ?timers, fun s => ?transmitter⟩
  case step =>
    rw [step_idle hp]
    obtain ⟨hsound, hcomplete⟩ := shows_nextDue s
    refine ⟨fun hs hr => ?_, fun hs ht => ?_, fun hs ht => ?_, fun hr hnone => ?_, fun hr hsome => ?_⟩
    · rw [idleStep_inReset (by simp [State.inReset, hr]), State.resetStep, hs]; rfl
    · rw [idleStep_inReset (by simp [State.inReset, hs]), State.resetStep, if_pos hs]
      exact congrArg Host.Outcome.next (if_pos ht)
    · rw [idleStep_inReset (by simp [State.inReset, hs]), State.resetStep, if_pos hs, hp]
      exact congrArg Host.Outcome.next (if_neg (Nat.not_lt.2 ht))
    · cases hd : s.nextDue with
      | none => rw [idleStep_quiet hr hd]
      | some c => exact absurd (hsound c hd) (hnone c)
    · cases hd : s.nextDue with
      | none =>
        obtain ⟨c, hc⟩ := hsome
        exact absurd hc (hcomplete hd c)
      | some c => exact ⟨c, hsound c hd, by rw [idleStep_due hr hp hd]⟩
  case micros =>
    obtain ⟨hwithin, htenth⟩ := characterTime_micros s
    refine ⟨hwithin, fun h => ?_⟩
    obtain ⟨hprobe, hstation⟩ := htenth (by omega)
    obtain ⟨hout, hrest⟩ := tick_probe s.probe
    rw [hprobe]
    exact ⟨hstation, hout, hrest⟩
  case timers =>
    intro t
    obtain ⟨x, p, hmicro⟩ := State.tickMicro_changes s
    obtain ⟨r, hr⟩ := State.characterTime_changes s
    have ht : t = _ := hr
    rw [hmicro] at ht
    have hclaims : s.claim.claims.map ClaimEntry.tick =
        s.claim.claims.map (fun e => if e.phase = .circulating then { e with timer := e.timer + 1 } else e) :=
      List.map_congr_left fun e _ => tick_claim e
    have hroll : s.roll.outstanding.map OutstandingRoll.tick =
        s.roll.outstanding.map (fun o => if o.phase = .queued then o else { o with age := o.age + 1 }) :=
      Option.map_congr fun o _ => tick_outstanding o
    rw [ht, ← hclaims, ← hroll]
    exact ⟨rfl, fun k => LeaseTable.record_mapRecords k _ _, rfl, rfl, rfl, rfl, rfl, rfl, rfl⟩
  case transmitter =>
    intro r sends
    obtain ⟨v, hv, hf, ho, hline, hnext, hqueue⟩ := characterTime_sends s
    have hsends : ∀ c x, Sends v.transmitChar c x v.ring.forwarding → sends c x := fun c x ⟨hc, hx, hq⟩ =>
      ⟨hline.trans hc, hnext.trans hx, (hqueue.trans hq).trans hf⟩
    refine ⟨fun h => hsends _ _ ?_, fun h => hsends _ _ ?_, fun n h => hsends _ _ ?_, fun h => hsends _ _ ?_, fun f rest hout => ?own,
      fun f rest hfw => ?forwarded⟩
    · simp only [State.transmitChar, hv.trans h]; exact sends_sendChar ..
    · simp only [State.transmitChar, hv.trans h]; exact sends_sendChar ..
    · simp only [State.transmitChar, hv.trans h]; exact sends_sendChar ..
    · simp only [State.transmitChar, hv.trans h]; exact sends_sendChar ..
    case own =>
      exact ⟨fun h => hsends _ _ (transmitChar_own (hv.trans h) (ho.trans hout)),
        fun n h => hsends _ _ (transmitChar_own (hv.trans h) (ho.trans hout))⟩
    case forwarded =>
      refine ⟨fun h => hsends _ _ ?_, fun n h hn => hsends _ _ ?_, fun n h hn => ?_⟩
      · exact (transmitChar_forwarded (hv.trans h) (hf.trans hfw)).1 (Nat.ne_of_lt (frame_length_pos f))
      · exact (transmitChar_forwarded (hv.trans h) (hf.trans hfw)).1 (Nat.ne_of_lt hn)
      · obtain ⟨hc, hx, hq⟩ := (transmitChar_forwarded (hv.trans h) (hf.trans hfw)).2 hn
        exact ⟨hline.trans hc, hnext.trans hx, hqueue.trans hq⟩

end Sys2Proof.LeaseProofs

/-! ## Conflict and precedence (O51) -/

namespace Sys2Proof.LeaseProofs
open Sys2Proof.Machine Sys2Proof.Statement

/-- The order of claims: patience first, then the lower originator (R38). -/
theorem precedes_eq_true_iff (p q : Nat) (x y : StationAddr) : precedes p x q y = true ↔ q < p ∨ (p = q ∧ x < y) := by
  simp [precedes]

/-- Claims of different originators are ordered one way or the other (R38). -/
theorem precedes_total {x y : StationAddr} (h : x ≠ y) (p q : Nat) : precedes p x q y = !precedes q y p x := by
  rw [Bool.eq_iff_iff, Bool.not_eq_true', ← Bool.not_eq_true, precedes_eq_true_iff, precedes_eq_true_iff, Fin.lt_def,
    Fin.lt_def]
  have hne : x.val ≠ y.val := fun e => h (Fin.ext e)
  omega

theorem claimOn_resource {k : Resource} {c : ClaimEngine} {e : ClaimEntry} (h : c.claimOn k = some e) : e.resource = k := by
  simpa using List.find?_some h

/-- With no hold in conflict a claim that meets one of this station is judged by precedence alone (R41). -/
theorem stand_of_claimMeets {o : StationAddr} {b : ClaimBody} {s : State} {e : ClaimEntry}
    (hh : s.lease.holdConflicts b.resource b.mode = false) (he : claimMeets e b s) :
    s.stand o b = if precedes e.patience s.station.address (patienceOf b.patience) o then .object else .yield := by
  have hno : ¬ holdObjects b s := fun h => by rw [(holdConflicts_iff b s).2 h] at hh; cases hh
  split
  · rename_i hp
    exact stand_eq_object (.inr ⟨e, he, (precedes_iff e o b s).1 hp⟩)
  · rename_i hp
    exact stand_eq_yield ⟨hno, e, he, mt (precedes_iff e o b s).2 hp⟩

/-- Settles O51: the conditions of R37 and R38, and the judgement of a passing claim by them. -/
theorem conflictAndPrecedence : Obligations.ConflictAndPrecedence :=
  ⟨⟨conflicting_iff, holdConflicts_iff, fun k s e h => (LeaseTable.hold?_resource k s.lease e h).1, fun _ _ _ => claimOn_resource⟩,
    fun p q x y => ⟨precedes_eq_true_iff p q x y, fun h => precedes_total h p q, fun _ _ _ _ => stand_of_claimMeets⟩⟩

end Sys2Proof.LeaseProofs

/-! ## An own CLAIM comes home (O35, O36) -/

namespace Sys2Proof.LeaseProofs
open Sys2Proof.Machine Sys2Proof.Statement

/-! ### The report -/

theorem take_eq_heldReport (r : Report) : Acquire.take r = heldReport r := by
  funext a
  cases r <;> simp [Acquire.take, heldReport]

/-- A report takes an ACQUIRE slot to SETTLING with the report held (R58, R95). -/
theorem report_of_slot {i : SlotIx} {s : State} {sl : Slot} {a : Acquire} (hs : s.table.slot i = some sl) (ha : sl.acquire = some a)
    (r : Report) :
    s.report i r = { s with table := s.table.setSlot i (some { sl with phase := .settling, acquire := some (heldReport r a) }) } := by
  simp only [State.report, State.mapTable, modifySlot_some i _ _ _ hs, ha, Option.map_some, take_eq_heldReport]

/-! ### The return -/

theorem matchesReturn_eq (b : ClaimBody) : ClaimEntry.matchesReturn b =
    fun e => decide (e.phase = .circulating ∧ e.sequence = b.sequence ∧ e.resource = b.resource ∧ e.mode = b.mode) := by
  funext e
  simp [ClaimEntry.matchesReturn, Bool.and_assoc]

@[simp] theorem judge_arrive (l : List Byte) (e : ClaimEntry) (o : Option StationAddr) (s : State) :
    (s.arrive l).judge e o = s.judge e o := by
  simp [State.judge]

/-- The state once a claim has left the list (R45). -/
def claimTaken (e : ClaimEntry) (s : State) : State := { s with claim := { s.claim with claims := s.claim.claims.erase e } }

/-- A return that matches an entry takes it from the list and carries out its judgement (R45, R47). -/
theorem claimHome_of_match {b : ClaimBody} {s : State} {e : ClaimEntry}
    (h : s.claim.claims.find? (ClaimEntry.matchesReturn b) = some e) :
    let t := (claimTaken e s).settleClaim e (s.judge e b.objection)
    s.claimHome b = t.reexamine t.table.everyWaiting := by
  have herase : s.claim.removeWhere (ClaimEntry.matchesReturn b) = (claimTaken e s).claim := by
    rw [ClaimEngine.removeWhere, eraseP_of_find? h]; rfl
  simp only [State.claimHome, h, herase]
  rfl

/-- A return that matches none is stale (R46). -/
theorem claimHome_of_stale {b : ClaimBody} {s : State} (h : s.claim.claims.find? (ClaimEntry.matchesReturn b) = none) :
    s.claimHome b = s := by
  simp only [State.claimHome, h]

/-- An own CLAIM that is taken goes to the Claim Engine (R164). -/
theorem exec_ownClaim {hop : Byte} {b : ClaimBody} {s t : State}
    (h : receives (Frame.bytes { origin := s.station.address, hop := hop, body := .claim b }) s)
    (ht : (s.arrive (Frame.bytes { origin := s.station.address, hop := hop, body := .claim b })).claimHome b = t)
    (hl : t.testLeaving = t) : exec (.ownClaimReturn hop b) s = atOnce s t := by
  have hjudge : State.judgeFrame { origin := s.station.address, hop := hop, body := .claim b }
      (s.arrive (Frame.bytes { origin := s.station.address, hop := hop, body := .claim b })) = t := by
    rw [State.judgeFrame, arrive_station, if_pos rfl, ← ht]; rfl
  rw [exec_ownClaimReturn hop b s (inReset_of_receives h), receive_of_receives h rfl, hjudge, hl]

/-- A return that matches an entry: its SETTLE in the Outbound Queue keeps LEAVING from ending (R152). -/
theorem exec_ownClaim_judged {hop : Byte} {b : ClaimBody} {s t : State} {e : ClaimEntry}
    (h : receives (Frame.bytes { origin := s.station.address, hop := hop, body := .claim b }) s)
    (he : s.claim.claims.find? (ClaimEntry.matchesReturn b) = some e)
    (ht : (claimTaken e (s.arrive (Frame.bytes { origin := s.station.address, hop := hop, body := .claim b }))).settleClaim e
      (s.judge e b.objection) = t)
    (hout : t.outbound ≠ []) : exec (.ownClaimReturn hop b) s = atOnce s (t.reexamine t.table.everyWaiting) := by
  refine exec_ownClaim h ?_ (testLeaving_reexamine _ hout)
  rw [claimHome_of_match (by rw [arrive_claim]; exact he), judge_arrive, ht]

/-! ### The table of R47 -/

theorem judge_cancelled {e : ClaimEntry} (hc : e.cancel = true) (o : Option StationAddr) (s : State) :
    s.judge e o = .withdrawn .cancelled := if_pos hc

theorem judge_leaving {e : ClaimEntry} {s : State} (hc : e.cancel = false) (hl : s.station.state = .leaving) (o : Option StationAddr) :
    s.judge e o = .withdrawn .leaving := by
  simp [State.judge, hc, hl]

theorem judge_granted {e : ClaimEntry} {s : State} {o : Option StationAddr} (hc : e.cancel = false) (hl : s.station.state ≠ .leaving)
    (ho : o = none) (hy : e.yielding = false) : s.judge e o = .granted := by
  simp [State.judge, hc, hl, ho, hy]

theorem judge_refused {e : ClaimEntry} {s : State} {o : Option StationAddr} (hc : e.cancel = false) (hl : s.station.state ≠ .leaving)
    (h : o ≠ none ∨ e.yielding = true) : s.judge e o = .refused := by
  have hn : ¬ (o = none ∧ e.yielding = false) := by
    rintro ⟨ho, hy⟩
    rcases h with h | h
    · exact h ho
    · rw [hy] at h; cases h
  simp [State.judge, hc, hl, hn]

/-- An own grant leaves the note of the record it grants (R14). -/
theorem note_ownGrant (self : StationAddr) (k : Resource) (m : Mode) (p : Client × Byte) (l : LeaseTable) :
    ((l.ownGrant self k m p).record k).note = (l.record k).note := by
  rw [record_ownGrant, if_pos rfl]; rfl

/-- A claim granted becomes a hold, whose group joins the slot (R48). -/
theorem grantClaim_of_slot {e : ClaimEntry} {s : State} {sl : Slot} (hs : s.table.slot e.slot = some sl) :
    let u : State := { s with lease := s.lease.ownGrant s.station.address e.resource e.mode (sl.client, sl.tag) }
    s.grantClaim e = (State.report e.slot .granted (u.enqueueSettle e .granted)).mapTable (fun t => t.modifyAcquire e.slot (fun x =>
      { x with groups := x.groups ++
        [{ resource := e.resource, mode := e.mode, note := (s.lease.record e.resource).note }] })) := by
  simp only [State.grantClaim, hs, State.mapLease_lease, note_ownGrant]
  rfl

/-- A SETTLE joins the Outbound Queue (R51). -/
theorem outbound_enqueueSettle {e : ClaimEntry} {o : SettleOutcome} {s : State} : (s.enqueueSettle e o).outbound ≠ [] := by
  simp [State.enqueueSettle, State.enqueue]

/-- Settles O35, row by row of R47. -/
theorem ownClaimIsJudged : Obligations.OwnClaimIsJudged := by
  refine ⟨fun i r s sl a hs ha => report_of_slot hs ha r, ?_⟩
  intro hop b s e sl hrec he hslot f u settle ends examined
  rw [← matchesReturn_eq b] at he
  have hu : claimTaken e (s.arrive f.bytes) = u := by simp only [claimTaken, arrive_claim]; rfl
  have hrow : ∀ j t, s.judge e b.objection = j → u.settleClaim e j = t → t.outbound ≠ [] →
      exec (.ownClaimReturn hop b) s = atOnce s (examined t) := fun j t hj ht hout =>
    exec_ownClaim_judged hrec he (by rw [hj, ← ht, ← hu]) hout
  refine ⟨fun hc => ?cancelled, fun hc hl => ?leaving, fun hc hl ho hy => ?granted, fun hc hl h => ?refused⟩
  case cancelled => exact hrow _ _ (judge_cancelled hc ..) rfl outbound_enqueueSettle
  case leaving => exact hrow _ _ (judge_leaving hc hl ..) rfl outbound_enqueueSettle
  case refused => exact hrow _ _ (judge_refused hc hl h) rfl outbound_enqueueSettle
  case granted =>
    have hlease : u.lease = s.lease := arrive_lease ..
    have haddress : u.station.address = s.station.address := congrArg StationController.address (arrive_station ..)
    have hgrant := grantClaim_of_slot (s := u) (sl := sl) ((congrArg _ (arrive_table ..)).trans hslot)
    simp only [hlease, haddress] at hgrant
    exact hrow _ _ (judge_granted hc hl ho hy) hgrant outbound_enqueueSettle

/-! ### A stale return -/

/-- An arrival touches the receiver and the frames in processing time alone. -/
theorem arrive_changes (l : List Byte) (s : State) :
    ∃ x p, s.arrive l = { s with ring := { s.ring with receiver := x, processing := p } } := by
  unfold State.arrive
  split <;> exact ⟨_, _, rfl⟩

/-- Settles O36: a stale return leaves what its arrival left, and no frame to choose. -/
theorem staleReturnChangesNothing : Obligations.StaleReturnChangesNothing := by
  intro hop b s hrec hdone hstale
  let f : Frame := { origin := s.station.address, hop := hop, body := .claim b }
  have hnone : (s.arrive f.bytes).claim.claims.find? (ClaimEntry.matchesReturn b) = none := by
    rw [arrive_claim, matchesReturn_eq, List.find?_eq_none]
    simpa using hstale
  have hexec : exec (.ownClaimReturn hop b) s = .next (s.arrive f.bytes) := by
    rw [exec_ownClaim hrec (claimHome_of_stale hnone) (testLeaving_of_not_done (by rw [leavingDone_arrive, hdone])), atOnce,
      State.startIdle_quiet _ _ (arrive_outbound ..) (arrive_forwarding ..)]
  obtain ⟨x, p, ha⟩ := arrive_changes f.bytes s
  rw [ha] at hexec
  exact ⟨_, hexec, rfl, rfl, rfl, rfl, rfl, rfl, rfl, rfl, rfl, rfl, rfl, rfl⟩

end Sys2Proof.LeaseProofs

/-! ## The transmission of claims, rolls, probes and SETTLEs (O42, O43) -/

namespace Sys2Proof.LeaseProofs
open Sys2Proof.Machine Sys2Proof.Statement

/-! ### What the makers are told (R170) -/

/-- The end of an own frame's transmission: its maker is told, then the end of LEAVING is tested (R152, R170). -/
theorem run_ownSent {f : OwnFrame} {rest : List OwnFrame} {s : State} (h : sends f rest s) (kind : Byte)
    (report : OwnFrame → State → State) (hk : f.frame.body.kindByte = kind) :
    s.run (State.ownSent kind report) = .next (report f (sentHead rest s)).testLeaving := by
  rw [State.run_running s _ h.1, ownSent_of_sends h kind report hk, State.startIdle_waiting _ _ (noFrame_of_sends h)]

/-- The QUEUED entry of a sent CLAIM goes CIRCULATING (R36). -/
theorem modifyWhere_ownsFrame (b : ClaimBody) (c : ClaimEngine) :
    c.modifyWhere (ClaimEntry.ownsFrame b) ClaimEntry.circulate = { c with claims := c.claims.map (fun e =>
      if e.phase = .queued ∧ e.sequence = b.sequence ∧ e.resource = b.resource ∧ e.mode = b.mode
      then { e with phase := .circulating, timer := 0 } else e) } := by
  simp only [ClaimEngine.modifyWhere, ClaimEntry.ownsFrame, ClaimEntry.circulate, Bool.and_eq_true, decide_eq_true_eq, and_assoc]

/-- A QUEUED roll goes CIRCULATING (R117). -/
theorem circulate_queued {r : RollUnit} {o : OutstandingRoll} (ho : r.outstanding = some o) (hp : o.phase = .queued) :
    r.circulate = { r with outstanding := some { o with phase := .circulating, sent := true, age := 0 } } := by
  simp only [RollUnit.circulate, ho, if_pos hp]

/-- Settles O42, by what each maker is told. -/
theorem sentClaimRollAndProbeRunTheirTimers : Obligations.SentClaimRollAndProbeRunTheirTimers := by
  refine ⟨fun o g b rest s hsends hb => ?claim, fun w g rest s hsends => ⟨fun b o hb ho hp => ?roll, fun q hq => ?probe⟩⟩
  case claim =>
    refine (run_ownSent hsends 0x51 State.reportClaim (by rw [hb]; rfl)).trans ?_
    simp only [State.reportClaim, hb, modifyWhere_ownsFrame]
    rfl
  case roll =>
    refine (run_ownSent hsends 0x54 State.reportRoll (by rw [hb]; rfl)).trans ?_
    simp only [State.reportRoll, State.mapRoll, circulate_queued (r := (sentHead rest s).roll) ho hp]
    rfl
  case probe => exact run_ownSent hsends 0x56 State.reportProbe (by rw [hq]; rfl)

/-! ### The rows of R95 -/

section Rows
variable {i : SlotIx} {u : State} {sl : Slot} {a : Acquire} (hs : u.table.slot i = some sl) (ha : sl.acquire = some a)
include hs ha

/-- A slot in SETTLING goes on by the report it holds (R52). -/
theorem settled_of_report (hp : sl.phase = .settling) {r : Report} (hr : a.report = some r) : u.settled i = u.settleRow i a r := by
  simp only [State.settled, hs, hp, ha, hr]

theorem succeedAcquire_of_slot : u.succeedAcquire i = (u.finish i .ok (.groups a.groups), u.table.behind i) := by
  simp only [State.succeedAcquire, hs, ha]

theorem failAcquire_of_second (hstage : a.stage = .second) (st : Status) : u.failAcquire i st = u.giveBack i st := by
  simp only [State.failAcquire, hs, Slot.stage, ha, hstage]

/-- In LEAVING a chained ACQUIRE gives back the hold it gained (R95, R97). -/
theorem chain_leaving (hl : u.station.state = .leaving) :
    u.chain i = (u.mapTable (fun t => t.modifyAcquire i (fun x => { x with stage := .second }))).giveBack i .aborted := by
  have hslot : (u.table.modifyAcquire i (fun x => { x with stage := .second })).slot i =
      some { sl with acquire := some { a with stage := .second } } := by
    rw [RequestTable.modifyAcquire, RequestTable.slot_modifySlot, if_pos rfl, hs, Option.map_some, ha, Option.map_some]
  rw [State.chain, if_pos hl]
  exact failAcquire_of_second hslot rfl rfl .aborted

/-- Out of LEAVING its stage 2 begins, examined before the slots behind it (R98). -/
theorem chain_goes_on (hl : u.station.state ≠ .leaving) :
    u.chain i = (u.mapTable (fun t => t.modifySlot i (fun sl => { sl with
      phase := .waiting, acquire := some { a with stage := .second, patience := 0, lost := 0, report := none } })),
      (i, none) :: u.table.behind i) := by
  simp only [State.chain, if_neg hl, State.beginStage2, State.mapTable, modifySlot_some i _ _ _ hs, ha, Option.map_some,
    Acquire.beginStage2]

theorem retry_waits (hl : u.station.state ≠ .leaving) :
    u.retry i = (u.mapTable (fun t => t.modifySlot i (fun sl => { sl with
      phase := .waiting, acquire := some { a with report := none } })), [(i, none)]) := by
  simp only [State.retry, if_neg hl, State.waitAgain, State.mapTable, modifySlot_some i _ _ _ hs, ha, Option.map_some]

end Rows

theorem retry_leaving {u : State} (hl : u.station.state = .leaving) (i : SlotIx) : u.retry i = u.failAcquire i .aborted := if_pos hl

/-- A grant that ends the ACQUIRE, or that its follow-on goes on from (R95). -/
theorem settleRow_granted_last {a : Acquire} (h : a.stage = .second ∨ a.followOn = none) (i : SlotIx) (u : State) :
    u.settleRow i a .granted = u.succeedAcquire i := by
  rcases h with h | h
  · simp only [State.settleRow, h]
  · cases hst : a.stage <;> simp [State.settleRow, h, hst]

theorem settleRow_granted_chain {a : Acquire} (h : a.stage = .first) (hf : a.followOn ≠ none) (i : SlotIx) (u : State) :
    u.settleRow i a .granted = u.chain i := by
  simp only [State.settleRow, h, if_pos (Option.isSome_iff_ne_none.2 hf)]

theorem settleRow_refused (a : Acquire) (i : SlotIx) (u : State) :
    u.settleRow i a .refused = if a.wait = true then u.retry i else u.failAcquire i .busy := rfl

/-- A lost circuit ends an ACQUIRE whose lost count has reached the retry limit (R54). -/
theorem settleRow_lostCircuit {u : State} {c : Configuration} (hc : u.station.config = some c) (a : Acquire) (i : SlotIx) :
    u.settleRow i a .lostCircuit = if a.lost = c.retry.toNat then u.failAcquire i .lost else u.retry i := by
  simp only [State.settleRow, State.lostOut, hc, decide_eq_true_eq]

/-- Settles O43, row by row of R95. -/
theorem sentSettleLetsTheSlotGoOn : Obligations.SentSettleLetsTheSlotGoOn := by
  intro i g b rest s sl a c hsends hb hs hp ha hc u leaving ends again
  have hslot : u.table.slot i = some sl := hs
  have hconfig : u.station.config = some c := hc
  have hrow : ∀ r p, a.report = some r → u.settleRow i a r = p → ends p := fun r p hr hp' => by
    refine (run_ownSent hsends 0x52 State.reportSettle (by rw [hb]; rfl)).trans ?_
    rw [← hp', ← settled_of_report hslot ha hp hr]; rfl
  have hretry : ¬ leaving → u.retry i = again := retry_waits hslot ha
  refine ⟨fun hr h => hrow _ _ hr ?last, fun hr h hf hl => hrow _ _ hr ?givesBack, fun hr h hf hl => hrow _ _ hr ?second,
    fun hr hw => hrow _ _ hr ?busy, fun hr hw hl => hrow _ _ hr ?refusedLeaving, fun hr hw hl => hrow _ _ hr ?refusedAgain,
    fun hr hlost => hrow _ _ hr ?lost, fun hr hlost hl => hrow _ _ hr ?lostLeaving, fun hr hlost hl => hrow _ _ hr ?lostAgain,
    fun hr => hrow _ _ hr rfl, fun hr => hrow _ _ hr rfl⟩
  case last => rw [settleRow_granted_last h, succeedAcquire_of_slot hslot ha]
  case givesBack => rw [settleRow_granted_chain h hf, chain_leaving hslot ha hl]
  case second => rw [settleRow_granted_chain h hf, chain_goes_on hslot ha hl]
  case busy => rw [settleRow_refused, if_neg (by simp [hw])]
  case refusedLeaving => rw [settleRow_refused, if_pos hw, retry_leaving (u := u) hl]
  case refusedAgain => rw [settleRow_refused, if_pos hw, hretry hl]
  case lost => rw [settleRow_lostCircuit hconfig, if_pos hlost]
  case lostLeaving => rw [settleRow_lostCircuit hconfig, if_neg hlost, retry_leaving (u := u) hl]
  case lostAgain => rw [settleRow_lostCircuit hconfig, if_neg hlost, hretry hl]

end Sys2Proof.LeaseProofs

/-! ## CANCEL (O17) -/

namespace Sys2Proof.LeaseProofs
open Sys2Proof.Machine Sys2Proof.Statement

/-! ### The target of a CANCEL -/

/-- The test of the search for the target, in a slot that may be free. -/
def targetIn (c : Client) (tag : Byte) (t : RequestTable) (j : SlotIx) : Bool := (t.slot j).any (Slot.isTarget c tag)

theorem cancelTarget_eq (c : Client) (tag : Byte) (t : RequestTable) : t.cancelTarget c tag = t.order.find? (targetIn c tag t) := by
  unfold RequestTable.cancelTarget
  congr 1
  funext j
  unfold targetIn
  cases t.slot j <;> rfl

theorem targetIn_iff (c : Client) (tag : Byte) (s : State) (j : SlotIx) : targetIn c tag s.table j = true ↔ acquireIn c tag s j := by
  simp [targetIn, acquireIn, Slot.isTarget, Option.any_eq_true, and_assoc]

/-- A CANCEL has no target exactly when no slot holds its ACQUIRE (R100). -/
theorem cancelTarget_eq_none_iff (c : Client) (tag : Byte) (s : State) :
    s.table.cancelTarget c tag = none ↔ ∀ j, ¬ acquireIn c tag s j := by
  simp only [cancelTarget_eq, List.find?_eq_none, targetIn_iff]
  refine ⟨fun h j hj => ?_, fun h j _ => h j⟩
  obtain ⟨x, hx, -⟩ := id hj
  exact h j ((mem_order s.table j).2 ⟨x, hx⟩) hj

/-- The target holds the CANCEL's ACQUIRE, and of those that do it was accepted first (R100, log 13). -/
theorem cancelTarget_earliest {c : Client} {tag : Byte} {s : State} {j : SlotIx} {x : Slot} (h : s.table.cancelTarget c tag = some j)
    (hx : s.table.slot j = some x) :
    acquireIn c tag s j ∧ ∀ k y, acquireIn c tag s k → s.table.slot k = some y → x.accept ≤ y.accept := by
  rw [cancelTarget_eq] at h
  obtain ⟨htarget, before, after, horder, hbefore⟩ := List.find?_eq_some_iff_append.1 h
  refine ⟨(targetIn_iff c tag s j).1 htarget, fun k y hk hy => ?_⟩
  have hsorted := order_sorted s.table
  rw [horder] at hsorted
  obtain ⟨-, hafter, -⟩ := List.pairwise_append.1 hsorted
  have hmem : k ∈ before ++ j :: after := horder ▸ (mem_order s.table k).2 ⟨y, hy⟩
  rcases List.mem_append.1 hmem with hkb | hkj
  · exact absurd ((targetIn_iff c tag s k).2 hk) (by simpa using hbefore k hkb)
  · rcases List.mem_cons.1 hkj with rfl | hka
    · rw [hx] at hy; cases hy; exact Nat.le_refl _
    · exact (List.pairwise_cons.1 hafter).1 k hka x y hx hy

/-! ### The CANCEL in its slot -/

theorem slot_accepted_of_ne {i j : SlotIx} (k : RequestKind) (r : HostRecord) (s : State) (h : j ≠ i) :
    (accepted i k r s).table.slot j = s.table.slot j := by
  rw [accepted, State.occupy, State.mapTable_table, RequestTable.slot_setSlot, if_neg h]

/-- The slot of the CANCEL itself, free before, holds no ACQUIRE. -/
theorem acquireIn_accepted {i : SlotIx} {r : HostRecord} {s : State} (hfree : s.table.slot i = none) (c : Client) (tag : Byte)
    (j : SlotIx) : acquireIn c tag (accepted i .cancel r s) j ↔ acquireIn c tag s j := by
  by_cases hj : j = i
  · subst hj
    refine iff_of_false ?_ ?_
    · rintro ⟨x, hx, hkind, -⟩
      obtain rfl := Option.some.inj ((slot_setSlot_self ..).symm.trans hx)
      cases hkind
    · rintro ⟨x, hx, -⟩
      rw [hfree] at hx; cases hx
  · rw [acquireIn, slot_accepted_of_ne .cancel r s hj]; rfl

/-- A CANCEL that proceeds is handled in its slot (R80, R100). -/
theorem exec_cancel_proceeds {i : SlotIx} {r : HostRecord} {s : State} (h : finds i .cancel r s)
    (hp : proceeds s.station.state ∨ s.station.state = .leaving) :
    exec (.cancel r) s = atOnce s ((accepted i .cancel r s).handleCancel i r.clientNo (r.field 0)) := by
  have hproceeds : disposition (requestOf .cancel r).kind s.station.state = .proceeds := by
    rcases hp with (hp | hp | hp | hp) | hp <;> rw [hp] <;> rfl
  rw [exec_cancel r s h.1, commit_proceeds i .cancel r s h (by decide) hproceeds]
  rfl

/-! ### The table of R100 -/

theorem handleCancel_of_none {c : Client} {tag : Byte} {u : State} (h : u.table.cancelTarget c tag = none) (i : SlotIx) :
    u.handleCancel i c tag = u.finish i .notFound .none := by
  simp only [State.handleCancel, h]

section Target
variable {c : Client} {tag : Byte} {u : State} {j : SlotIx} {x : Slot}
  (ht : u.table.cancelTarget c tag = some j) (hx : u.table.slot j = some x)
include ht hx

/-- A waiting ACQUIRE is ended CANCELLED before the CANCEL's own OK. -/
theorem handleCancel_waiting (hp : x.phase = .waiting) {a : Acquire} (ha : x.acquire = some a) (i : SlotIx) :
    u.handleCancel i c tag =
      ((u.failAcquire j .cancelled).1.finish i .ok .none).reexamine (u.failAcquire j .cancelled).2 := by
  simp only [State.handleCancel, ht, hx, hp, ha, Option.isSome_some, if_true]

/-- The claim of an ACQUIRE in CLAIMING gets its cancel flag (R56). -/
theorem handleCancel_claiming (hp : x.phase = .claiming) (i : SlotIx) :
    u.handleCancel i c tag = State.finish i .ok .none { u with claim := { u.claim with
      claims := u.claim.claims.map (fun e => if e.slot = j then { e with cancel := true } else e) } } := by
  simp only [State.handleCancel, ht, hx, hp, ClaimEngine.cancelOf, ClaimEngine.modifyWhere, decide_eq_true_eq]

/-- An ACQUIRE past its claim is cancelled no more. -/
theorem handleCancel_tooLate (hp : x.phase = .settling ∨ x.phase = .releasing ∨ x.phase = .posting) (i : SlotIx) :
    u.handleCancel i c tag = u.finish i .tooLate .none := by
  rcases hp with hp | hp | hp <;> simp only [State.handleCancel, ht, hx, hp]

end Target

theorem failAcquire_of_first {i : SlotIx} {u : State} {sl : Slot} {a : Acquire} (hs : u.table.slot i = some sl)
    (ha : sl.acquire = some a) (hstage : a.stage = .first) (st : Status) :
    u.failAcquire i st = (u.finish i st .none, u.table.behind i) := by
  simp only [State.failAcquire, hs, Slot.stage, ha, hstage]

/-- Settles O17: the target is the first of the acceptance order, and its phase and stage choose the row of R100. -/
theorem cancelActsOnItsTarget : Obligations.CancelActsOnItsTarget := by
  intro i r s hfinds hproc u target isTarget
  have ⟨_, _, hlowest⟩ := hfinds
  have hfree : s.table.slot i = none := RequestTable.lowestFree_slot i s.table hlowest
  have htargets : ∀ j, acquireIn r.clientNo (r.field 0) u j ↔ isTarget j := acquireIn_accepted hfree _ _
  have hexec : ∀ t, u.handleCancel i r.clientNo (r.field 0) = t → exec (.cancel r) s = atOnce s t := fun t ht => by
    rw [exec_cancel_proceeds hfinds hproc, ht]
  have hquiet : ∀ t : State, t.outbound = s.outbound → t.ring = s.ring → u.handleCancel i r.clientNo (r.field 0) = t →
      exec (.cancel r) s = .next t := fun t ho hr ht => by
    rw [hexec t ht, atOnce, State.startIdle_quiet t s ho (congrArg RingPort.forwarding hr)]
  refine ⟨?none, fun hn => hquiet _ rfl rfl (handleCancel_of_none hn i), fun j x hj hx => ?_⟩
  case none => exact (cancelTarget_eq_none_iff ..).trans (forall_congr' fun j => not_congr (htargets j))
  obtain ⟨htarget, hearliest⟩ := cancelTarget_earliest hj hx
  refine ⟨(htargets j).1 htarget, fun k y hk hy => ?earliest, fun a hp ha hstage => hexec _ ?first, fun a hp ha hstage => hexec _ ?second,
    fun hp => hquiet _ rfl rfl (handleCancel_claiming hj hx hp i), fun hp => hquiet _ rfl rfl (handleCancel_tooLate hj hx hp i)⟩
  case earliest =>
    have hki : k ≠ i := fun e => by rw [e, hfree] at hy; cases hy
    exact hearliest k y ((htargets k).2 hk) ((slot_accepted_of_ne .cancel r s hki).trans hy)
  case first => rw [handleCancel_waiting hj hx hp ha, failAcquire_of_first hx ha hstage]
  case second => rw [handleCancel_waiting hj hx hp ha, failAcquire_of_second hx ha hstage]

end Sys2Proof.LeaseProofs

/-! ## The release of a hold, RELEASE and the give-back (O15, O18) -/

namespace Sys2Proof.LeaseProofs
open Sys2Proof.Machine Sys2Proof.Statement

/-! ### The station-level release (R64) -/

/-- The frame of a release carries the note of an EXCLUSIVE hold alone. -/
theorem releaseHold_eq (e : HoldEntry) (note : List Byte) (i : SlotIx) (c : Option Completion) (s : State) :
    s.releaseHold e note i c =
      { s.enqueue (.release { resource := e.resource, mode := e.mode, note := if e.mode = .exclusive then note else [] }) (some i) with
        lease := s.lease.ownRelease s.station.address e.resource e.mode note
        table := s.table.modifySlot i (fun sl => { sl with phase := .releasing, completion := c }) } := by
  obtain ⟨k, m, clients, phase⟩ := e
  cases m <;> rfl

/-- A release without a note, whatever the mode. -/
theorem releaseHold_noteless (e : HoldEntry) (i : SlotIx) (c : Option Completion) (s : State) :
    s.releaseHold e [] i c =
      { s.enqueue (.release { resource := e.resource, mode := e.mode, note := [] }) (some i) with
        lease := s.lease.ownRelease s.station.address e.resource e.mode []
        table := s.table.modifySlot i (fun sl => { sl with phase := .releasing, completion := c }) } := by
  rw [releaseHold_eq, ite_self]

/-! ### The rows of the give-back (R72, R99) -/

section GiveBack
variable {i : SlotIx} {s : State} {sl : Slot} {a : Acquire} (hs : s.table.slot i = some sl) (ha : sl.acquire = some a)
include hs ha

/-- The pair leaves a hold that other clients keep. -/
theorem giveBack_of_kept {e : HoldEntry} (he : s.lease.heldEntry? a.first = some e) (hc : e.hasClient sl.client = true)
    (hn : (e.dropClient sl.client).clients ≠ []) (st : Status) : s.giveBack i st =
      (State.finish i st .none { s with lease := s.lease.modifyHold a.first (HoldEntry.dropClient sl.client) }, s.table.behind i) := by
  simp only [State.giveBack, hs, ha, he, hc, if_true, if_neg hn]; rfl

/-- With its last client gone the hold is released, and the slot keeps its completion (R66). -/
theorem giveBack_of_last {e : HoldEntry} (he : s.lease.heldEntry? a.first = some e) (hc : e.hasClient sl.client = true)
    (hn : (e.dropClient sl.client).clients = []) (st : Status) :
    let t := s.releaseHold e [] i (some (sl.record st .none))
    s.giveBack i st = (t, t.table.offer a.first ++ s.table.behind i) := by
  simp only [State.giveBack, hs, ha, he, hc, hn, if_true]

/-- With the pair gone the request completes and nothing is released. -/
theorem giveBack_of_gone (h : ∀ e, s.lease.heldEntry? a.first = some e → e.hasClient sl.client ≠ true) (st : Status) :
    s.giveBack i st = (s.finish i st .none, s.table.behind i) := by
  cases he : s.lease.heldEntry? a.first with
  | none => simp only [State.giveBack, hs, ha, he]
  | some e => simp only [State.giveBack, hs, ha, he, if_neg (h e he)]

end GiveBack

/-- Settles O18: the pair of stage 1 and the other clients of its hold choose the row. -/
theorem giveBackReturnsTheFirstStage : Obligations.GiveBackReturnsTheFirstStage := by
  intro i st s sl a hs ha hasPair
  refine ⟨fun e ⟨he, hc⟩ hn => giveBack_of_kept hs ha he hc hn st, fun e ⟨he, hc⟩ hn => ?last,
    fun h => giveBack_of_gone hs ha (fun e he hc => h e ⟨he, hc⟩) st, fun h => failAcquire_of_first hs ha h st,
    fun h => failAcquire_of_second hs ha h st⟩
  case last =>
    rw [← releaseHold_noteless]
    exact giveBack_of_last hs ha he hc hn st

/-! ### The rows of R70 -/

theorem requestResource_eq_some_iff (b : Byte) (k : Resource) : requestResource b = some k ↔ b.toNat = k.val := by
  unfold requestResource
  split
  · simp [Fin.ext_iff]
  · rename_i hb
    exact iff_of_false (by simp) (fun h => hb (h ▸ k.isLt))

/-- A RELEASE finds a hold in HELD phase that names its client (R70). -/
theorem releasable_eq_some_iff (c : Client) (b : Byte) (s : State) (e : HoldEntry) : s.releasable c b = some e ↔
    ∃ k : Resource, b.toNat = k.val ∧ s.lease.heldEntry? k = some e ∧ e.hasClient c = true := by
  simp only [← requestResource_eq_some_iff]
  unfold State.releasable
  cases requestResource b with
  | none => simp
  | some k =>
    cases hk : s.lease.heldEntry? k with
    | none => simp [hk]
    | some d =>
      simp only [hk, Option.ite_none_right_eq_some, Option.some.injEq]
      constructor
      · rintro ⟨hc, rfl⟩; exact ⟨k, rfl, hk, hc⟩
      · rintro ⟨_, rfl, he, hc⟩
        obtain rfl := Option.some.inj (hk.symm.trans he)
        exact ⟨hc, rfl⟩

theorem handleRelease_of_fault {c : Client} {u : State} (h : u.table.fault c = true) (i : SlotIx) (b : Byte) (note : List Byte) :
    u.handleRelease i c b note = u.finish i .clientFaulted .none := if_pos h

section Release
variable {c : Client} {b : Byte} {u : State} (hf : u.table.fault c = false)
include hf

theorem handleRelease_of_notHeld (h : u.releasable c b = none) (i : SlotIx) (note : List Byte) :
    u.handleRelease i c b note = (u.mapTable (RequestTable.setFault c true)).finish i .notHeld .none := by
  simp only [State.handleRelease, hf, h, Bool.false_eq_true, if_false]

/-- The client leaves a hold that others keep (R8). -/
theorem handleRelease_of_kept {e : HoldEntry} (he : u.releasable c b = some e) (hn : (e.dropClient c).clients ≠ []) (i : SlotIx)
    (note : List Byte) : u.handleRelease i c b note =
      (u.mapLease (fun l => l.modifyHold e.resource (HoldEntry.dropClient c))).finish i (noteStatus note) .none := by
  simp only [State.handleRelease, hf, he, if_neg hn, Bool.false_eq_true, if_false]

/-- The last client's RELEASE releases the hold and offers the resource (R64). -/
theorem handleRelease_of_last {e : HoldEntry} (he : u.releasable c b = some e) (hn : (e.dropClient c).clients = []) {i : SlotIx}
    {sl : Slot} (hs : u.table.slot i = some sl) (note : List Byte) :
    let t := u.releaseHold e note i (some (sl.record (if e.mode = .exclusive then .ok else noteStatus note) .none))
    u.handleRelease i c b note = t.reexamine (t.table.offer e.resource) := by
  cases hm : e.mode <;> simp [State.handleRelease, hf, he, hn, hs, hm]

end Release

/-! ### The RELEASE in its slot -/

/-- The slot of an accepted record (R79). -/
def acceptedSlot (k : RequestKind) (r : HostRecord) (s : State) : Slot :=
  { client := r.clientNo, tag := r.tag, request := requestOf k r, phase := .waiting, accept := s.table.occupied + 1,
    acquire := none, completion := none }

theorem slot_accepted (i : SlotIx) (k : RequestKind) (r : HostRecord) (s : State) :
    (accepted i k r s).table.slot i = some (acceptedSlot k r s) := slot_setSlot_self ..

/-- A RELEASE that proceeds is handled in its slot (R70, R80). -/
theorem exec_release_proceeds {i : SlotIx} {r : HostRecord} {s : State} {b : Byte} {note : List Byte} (h : finds i .release r s)
    (hp : proceeds s.station.state) (hreq : requestOf .release r = .release b note) :
    exec (.release r) s = atOnce s ((accepted i .release r s).handleRelease i r.clientNo b note) := by
  have hproceeds : disposition (requestOf .release r).kind s.station.state = .proceeds := by
    rcases hp with hp | hp | hp | hp <;> rw [hp] <;> rfl
  rw [exec_release r s h.1, commit_proceeds i .release r s h (by decide) hproceeds, hreq]
  rfl

/-- Settles O15: the fault flag, the hold found and its other clients choose the row of R70. -/
theorem releaseIsTaken : Obligations.ReleaseIsTaken := by
  intro i r s b note hfinds hproc hreq u c found noted
  have hfound : ∀ e, u.releasable c b = some e ↔ found e := releasable_eq_some_iff c b u
  have hexec : ∀ t, u.handleRelease i c b note = t → exec (.release r) s = atOnce s t := fun t ht => by
    rw [exec_release_proceeds hfinds hproc hreq, ht]
  have hquiet : ∀ t : State, t.outbound = s.outbound → t.ring = s.ring → u.handleRelease i c b note = t →
      exec (.release r) s = .next t := fun t ho hr ht => by
    rw [hexec t ht, atOnce, State.startIdle_quiet t s ho (congrArg RingPort.forwarding hr)]
  have hfaults : u.table.fault c = s.table.fault c := rfl
  rw [← hfaults]
  refine ⟨fun hf => hquiet _ rfl rfl (handleRelease_of_fault hf i b note), fun hf h => ?notHeld,
    fun e hf he hn => hquiet _ rfl rfl (handleRelease_of_kept hf ((hfound e).2 he) hn i note), fun e hf he hn => ?last⟩
  case notHeld =>
    have hnone : u.releasable c b = none := Option.eq_none_iff_forall_ne_some.2 (fun e he => h e ((hfound e).1 he))
    exact hquiet _ rfl rfl (handleRelease_of_notHeld hf hnone i note)
  case last =>
    refine hexec _ ((handleRelease_of_last hf ((hfound e).2 he) hn (slot_accepted i .release r s) note).trans ?_)
    simp only [releaseHold_eq]
    rfl

end Sys2Proof.LeaseProofs

/-! ## LEAVE (O21) -/

namespace Sys2Proof.LeaseProofs
open Sys2Proof.Machine Sys2Proof.Statement

/-! ### Slots in which no ACQUIRE waits -/

/-- A slot is free, or no ACQUIRE waits in it (R92). -/
def NotWaiting (t : RequestTable) (i : SlotIx) : Prop := ∀ x, t.slot i = some x → x.waitsFor = none

/-- A slot is free, or holds a request without ACQUIRE fields (R77). -/
def WithoutAcquire (t : RequestTable) (i : SlotIx) : Prop := ∀ x, t.slot i = some x → x.acquire = none

theorem waitsFor_of_noAcquire {x : Slot} (h : x.acquire = none) : x.waitsFor = none := by simp only [Slot.waitsFor, h]

theorem WithoutAcquire.notWaiting {t : RequestTable} {i : SlotIx} (h : WithoutAcquire t i) : NotWaiting t i :=
  fun x hx => waitsFor_of_noAcquire (h x hx)

/-- What holds of a slot whatever its acceptance number is kept by a change of another slot. -/
theorem othersKept_forall {p : Slot → Prop} (hp : ∀ x n, p x → p { x with accept := n }) {i j : SlotIx} {t u : RequestTable}
    (h : RequestTable.OthersKept i t u) (hj : j ≠ i) (ht : ∀ x, t.slot j = some x → p x) : ∀ x, u.slot j = some x → p x := by
  intro x hx
  cases hs : t.slot j with
  | none => rw [othersKept_none h hj hs] at hx; cases hx
  | some sl =>
    obtain ⟨n, hn⟩ := othersKept_some h hj hs
    rw [hn] at hx; cases hx
    exact hp sl n (ht sl hs)

theorem NotWaiting.of_othersKept {i j : SlotIx} {t u : RequestTable} (ht : NotWaiting t j) (h : RequestTable.OthersKept i t u)
    (hj : j ≠ i) : NotWaiting u j := othersKept_forall (fun _ _ => id) h hj ht

theorem WithoutAcquire.of_othersKept {i j : SlotIx} {t u : RequestTable} (ht : WithoutAcquire t j)
    (h : RequestTable.OthersKept i t u) (hj : j ≠ i) : WithoutAcquire u j := othersKept_forall (fun _ _ => id) h hj ht

/-- The slot of a completed request is free or in POSTING (R106). -/
theorem notWaiting_finish_self (i : SlotIx) (st : Status) (c : Content) (t : RequestTable) : NotWaiting (t.finish i st c) i := by
  intro x hx
  cases hs : t.slot i with
  | none => simp only [RequestTable.finish, hs] at hx; cases hx
  | some sl =>
    rcases ready_finish i st c hs with ⟨-, hfree⟩ | ⟨y, hy, hp, -⟩
    · rw [hfree] at hx; cases hx
    · rw [hy] at hx; cases hx
      exact waitsFor_of_phase (by rw [hp]; decide)

theorem NotWaiting.finish {t : RequestTable} {j : SlotIx} (h : NotWaiting t j) (i : SlotIx) (st : Status) (c : Content) :
    NotWaiting (t.finish i st c) j := by
  by_cases hj : j = i
  · rw [hj]; exact notWaiting_finish_self i st c t
  · exact h.of_othersKept (.finish i st c t) hj

/-- A slot put in another phase does not wait. -/
theorem notWaiting_modifySlot {f : Slot → Slot} (hf : ∀ x, (f x).phase ≠ .waiting) (i : SlotIx) (t : RequestTable) :
    NotWaiting (t.modifySlot i f) i := by
  intro x hx
  rw [RequestTable.slot_modifySlot, if_pos rfl] at hx
  obtain ⟨y, -, rfl⟩ := Option.map_eq_some_iff.1 hx
  exact waitsFor_of_phase (hf y)

/-- A slot without ACQUIRE fields has none in another phase. -/
theorem WithoutAcquire.modifySlot {t : RequestTable} {i : SlotIx} (h : WithoutAcquire t i) {f : Slot → Slot}
    (hf : ∀ x, (f x).acquire = x.acquire) : WithoutAcquire (t.modifySlot i f) i := by
  intro x hx
  rw [RequestTable.slot_modifySlot, if_pos rfl] at hx
  obtain ⟨y, hy, rfl⟩ := Option.map_eq_some_iff.1 hx
  exact (hf y).trans (h y hy)

/-! ### The end of a waiting ACQUIRE (R150) -/

/-- A give-back keeps the claims, and its slot waits no more. -/
theorem giveBack_ends {i : SlotIx} {s : State} {sl : Slot} {a : Acquire} (hs : s.table.slot i = some sl) (ha : sl.acquire = some a)
    (st : Status) : (s.giveBack i st).1.claim = s.claim ∧ NotWaiting (s.giveBack i st).1.table i := by
  by_cases h : ∃ e, s.lease.heldEntry? a.first = some e ∧ e.hasClient sl.client = true
  · obtain ⟨e, he, hc⟩ := h
    by_cases hn : (e.dropClient sl.client).clients = []
    · rw [giveBack_of_last hs ha he hc hn st]
      exact ⟨rfl, notWaiting_modifySlot (by simp) i s.table⟩
    · rw [giveBack_of_kept hs ha he hc hn st]
      exact ⟨rfl, notWaiting_finish_self i st .none s.table⟩
  · rw [giveBack_of_gone hs ha (fun e he hc => h ⟨e, he, hc⟩) st]
    exact ⟨rfl, notWaiting_finish_self i st .none s.table⟩

/-- So does a failure in either stage. -/
theorem failAcquire_ends {i : SlotIx} {s : State} {sl : Slot} {a : Acquire} (hs : s.table.slot i = some sl) (ha : sl.acquire = some a)
    (st : Status) : (s.failAcquire i st).1.claim = s.claim ∧ NotWaiting (s.failAcquire i st).1.table i := by
  cases hstage : a.stage with
  | first =>
    rw [failAcquire_of_first hs ha hstage st]
    exact ⟨rfl, notWaiting_finish_self i st .none s.table⟩
  | second =>
    rw [failAcquire_of_second hs ha hstage st]
    exact giveBack_ends hs ha st

theorem endWaiting_of_waiting {i : SlotIx} {s : State} {x : Slot} (hs : s.table.slot i = some x) (hw : x.waitsFor ≠ none) :
    s.endWaiting i = (s.failAcquire i .aborted).1 := by
  simp only [State.endWaiting, hs, Option.isSome_iff_ne_none.2 hw, if_true]

theorem endWaiting_of_notWaiting {i : SlotIx} {s : State} (h : NotWaiting s.table i) : s.endWaiting i = s := by
  cases hs : s.table.slot i with
  | none => simp only [State.endWaiting, hs]
  | some x => simp [State.endWaiting, hs, h x hs]

/-- Either no ACQUIRE waits in the slot and nothing changes, or the ACQUIRE in it fails ABORTED. -/
theorem endWaiting_cases (s : State) (i : SlotIx) : (NotWaiting s.table i ∧ s.endWaiting i = s) ∨
    ∃ sl a, s.table.slot i = some sl ∧ sl.acquire = some a ∧ s.endWaiting i = (s.failAcquire i .aborted).1 := by
  by_cases h : NotWaiting s.table i
  · exact .inl ⟨h, endWaiting_of_notWaiting h⟩
  · obtain ⟨sl, hs, hw⟩ : ∃ sl, s.table.slot i = some sl ∧ sl.waitsFor ≠ none := by
      refine Classical.byContradiction fun hnone => h fun x hx => ?_
      exact Decidable.byContradiction fun hw => hnone ⟨x, hx, hw⟩
    obtain ⟨a, ha⟩ := Option.ne_none_iff_exists'.1 (mt waitsFor_of_noAcquire hw)
    exact .inr ⟨sl, a, hs, ha, endWaiting_of_waiting hs hw⟩

/-- What the end of a waiting ACQUIRE keeps: station, Roll Unit and claims, and every other slot. -/
theorem endWaiting_keeps (s : State) (i : SlotIx) : (s.endWaiting i).station = s.station ∧ (s.endWaiting i).roll = s.roll ∧
    (s.endWaiting i).claim = s.claim ∧ RequestTable.OthersKept i s.table (s.endWaiting i).table := by
  rcases endWaiting_cases s i with ⟨-, h⟩ | ⟨sl, a, hs, ha, h⟩
  · rw [h]; exact ⟨rfl, rfl, rfl, .refl ..⟩
  · rw [h]
    have hserved := Served.failAcquire s i .aborted
    exact ⟨hserved.station, hserved.roll, (failAcquire_ends hs ha .aborted).1, othersKept_failAcquire i .aborted s⟩

theorem notWaiting_endWaiting_self (s : State) (i : SlotIx) : NotWaiting (s.endWaiting i).table i := by
  rcases endWaiting_cases s i with ⟨hw, h⟩ | ⟨sl, a, hs, ha, h⟩
  · rw [h]; exact hw
  · rw [h]; exact (failAcquire_ends hs ha .aborted).2

/-- Where no ACQUIRE waits, none waits after another slot's end. -/
theorem NotWaiting.endWaiting {s : State} {j : SlotIx} (h : NotWaiting s.table j) (i : SlotIx) :
    NotWaiting (s.endWaiting i).table j := by
  by_cases hj : j = i
  · rw [hj]; exact notWaiting_endWaiting_self s i
  · obtain ⟨-, -, -, hkept⟩ := endWaiting_keeps s i
    exact h.of_othersKept hkept hj

/-- The slot of another request is not ended. -/
theorem WithoutAcquire.endWaiting {s : State} {j : SlotIx} (h : WithoutAcquire s.table j) (i : SlotIx) :
    WithoutAcquire (s.endWaiting i).table j := by
  by_cases hj : j = i
  · rw [← hj, endWaiting_of_notWaiting h.notWaiting]; exact h
  · obtain ⟨-, -, -, hkept⟩ := endWaiting_keeps s i
    exact h.of_othersKept hkept hj

/-- No ACQUIRE waits in a slot that the ends pass through. -/
theorem notWaiting_foldl_endWaiting {is : List SlotIx} {j : SlotIx} (hj : j ∈ is) (s : State) :
    NotWaiting (is.foldl State.endWaiting s).table j := by
  induction is generalizing s with
  | nil => cases hj
  | cons i is ih =>
    rw [List.foldl_cons]
    rcases List.mem_cons.1 hj with rfl | hj
    · exact foldSlots (P := fun t => NotWaiting t.table j) State.endWaiting (fun t k h => h.endWaiting k) is _
        (notWaiting_endWaiting_self s j)
    · exact ih hj _

/-- With every occupied slot passed through, no ACQUIRE waits. -/
theorem notWaiting_after_ends (s : State) (j : SlotIx) : NotWaiting (s.table.order.foldl State.endWaiting s).table j := by
  by_cases hj : j ∈ s.table.order
  · exact notWaiting_foldl_endWaiting hj s
  · have hfree : NotWaiting s.table j := fun x hx => absurd ((mem_order s.table j).2 ⟨x, hx⟩) hj
    exact foldSlots (P := fun t => NotWaiting t.table j) State.endWaiting (fun t k h => h.endWaiting k) _ s hfree

/-! ### The release step of the LEAVE slot (R73) -/

theorem leaveStep_of_none {s : State} (h : s.lease.holds.find? (fun e => decide (e.phase = .held)) = none) (i : SlotIx) :
    s.leaveStep i = { s with table := s.table.modifySlot i (fun sl => { sl with phase := .waiting }) } := by
  simp only [State.leaveStep, h]; rfl

theorem leaveStep_of_some {s : State} {e : HoldEntry} (h : s.lease.holds.find? (fun e => decide (e.phase = .held)) = some e)
    (i : SlotIx) : s.leaveStep i = s.releaseHold e [] i none := by
  simp only [State.leaveStep, h]

/-- What the step keeps: station, Roll Unit and claims, and every slot but its own. -/
theorem leaveStep_keeps (i : SlotIx) (s : State) : (s.leaveStep i).station = s.station ∧ (s.leaveStep i).roll = s.roll ∧
    (s.leaveStep i).claim = s.claim ∧ RequestTable.OthersKept i s.table (s.leaveStep i).table := by
  cases h : s.lease.holds.find? (fun e => decide (e.phase = .held)) with
  | none => rw [leaveStep_of_none h]; exact ⟨rfl, rfl, rfl, .modifySlot ..⟩
  | some e => rw [leaveStep_of_some h]; exact ⟨rfl, rfl, rfl, .modifySlot ..⟩

/-- The LEAVE slot gets no ACQUIRE fields by its step. -/
theorem WithoutAcquire.leaveStep {s : State} {i : SlotIx} (hs : WithoutAcquire s.table i) :
    WithoutAcquire (s.leaveStep i).table i := by
  cases h : s.lease.holds.find? (fun e => decide (e.phase = .held)) with
  | none => rw [leaveStep_of_none h]; exact hs.modifySlot (fun _ => rfl)
  | some e => rw [leaveStep_of_some h]; exact hs.modifySlot (fun _ => rfl)

/-! ### The station that leaves -/

/-- What stands of a LEAVE taken in s: LEAVING or HALTED, no roll timer, no held origination, the claims of s, and no ACQUIRE in
WAITING (R150). -/
structure Left (s t : State) : Prop where
  state : t.station.state = .leaving ∨ t.station.state = .halted
  timer : t.roll.timer = none
  held : t.roll.held = false
  claim : t.claim = s.claim
  slots : ∀ j, NotWaiting t.table j

/-- The end of LEAVING halts the station, and no ACQUIRE is put in WAITING (R152). -/
theorem Left.endLeaving {s t : State} (h : Left s t) : Left s t.endLeaving := by
  obtain ⟨v, hv, hend⟩ : ∃ v : State, (v.claim = t.claim ∧ ∀ j, NotWaiting v.table j) ∧ t.endLeaving =
      ((v.assertBypass.mapRoll RollUnit.halt).enter .halted).raiseState .leaveDone t.station.state := by
    unfold State.endLeaving
    split
    · exact ⟨t, ⟨rfl, h.slots⟩, rfl⟩
    · exact ⟨t.finish _ .ok .none, ⟨rfl, fun j => (h.slots j).finish _ _ _⟩, rfl⟩
  obtain ⟨hclaim, hslots⟩ := hv
  rw [hend]
  refine ⟨.inr ?state, ?timer, ?held, ?claim, fun j x hx => hslots j x ?slot⟩
  case state => simp
  case timer => simp [RollUnit.halt]
  case held => simp [RollUnit.halt]
  case claim => simp [hclaim, h.claim]
  case slot => rwa [State.raiseState, (raiseNotice_table _ _).2.1 j] at hx

theorem Left.testLeaving {s t : State} (h : Left s t) : Left s t.testLeaving := by
  unfold State.testLeaving
  split
  · exact h.endLeaving
  · exact h

/-- The transmitter's choice at the end of the change is none of it. -/
theorem Left.startIdle {s t : State} (h : Left s t) (b : State) : Left s (t.startIdle b) := ⟨h.state, h.timer, h.held, h.claim, h.slots⟩

/-- The ends of the waiting ACQUIREs keep station, Roll Unit and claims. -/
theorem foldl_endWaiting_keeps (is : List SlotIx) (s : State) : (is.foldl State.endWaiting s).station = s.station ∧
    (is.foldl State.endWaiting s).roll = s.roll ∧ (is.foldl State.endWaiting s).claim = s.claim := by
  refine foldSlots (P := fun t => t.station = s.station ∧ t.roll = s.roll ∧ t.claim = s.claim) State.endWaiting
    (fun t i ⟨hstation, hroll, hclaim⟩ => ?_) is s ⟨rfl, rfl, rfl⟩
  obtain ⟨gstation, groll, gclaim, -⟩ := endWaiting_keeps t i
  exact ⟨gstation.trans hstation, groll.trans hroll, gclaim.trans hclaim⟩

/-- In LEAVING with the Roll Unit stopped, the ends of the waiting ACQUIREs and the step of a LEAVE slot leave no ACQUIRE in WAITING. -/
theorem left_of_steps {u : State} {i : SlotIx} (hstate : u.station.state = .leaving) (htimer : u.roll.timer = none)
    (hheld : u.roll.held = false) (hslot : WithoutAcquire u.table i) :
    Left u ((u.table.order.foldl State.endWaiting u).leaveStep i) := by
  have hleave : WithoutAcquire (u.table.order.foldl State.endWaiting u).table i :=
    foldSlots (P := fun t => WithoutAcquire t.table i) State.endWaiting (fun t k h => h.endWaiting k) _ u hslot
  obtain ⟨hstation, hroll, hclaim⟩ := foldl_endWaiting_keeps u.table.order u
  obtain ⟨gstation, groll, gclaim, hkept⟩ := leaveStep_keeps i (u.table.order.foldl State.endWaiting u)
  refine ⟨.inl (by rw [gstation, hstation, hstate]), by rw [groll, hroll, htimer], by rw [groll, hroll, hheld], gclaim.trans hclaim,
    fun j => ?_⟩
  by_cases hj : j = i
  · rw [hj]; exact hleave.leaveStep.notWaiting
  · exact (notWaiting_after_ends u j).of_othersKept hkept hj

/-! ### The LEAVE in its slot -/

/-- The station in LEAVING with the Roll Unit stopped, the LEAVE in its slot (R150, parts 1 and 2). -/
def leavingState (i : SlotIx) (r : HostRecord) (s : State) : State :=
  { accepted i .leave r s with
    station := { s.station with state := .leaving }, roll := { s.roll with timer := none, held := false } }

/-- The slot of the LEAVE itself has no ACQUIRE fields. -/
theorem withoutAcquire_leavingState (i : SlotIx) (r : HostRecord) (s : State) : WithoutAcquire (leavingState i r s).table i := by
  intro x hx
  obtain rfl := Option.some.inj ((slot_accepted i .leave r s).symm.trans hx)
  rfl

/-- A LEAVE that proceeds is handled in its slot (R80, R149, R150). -/
theorem exec_leave_proceeds {i : SlotIx} {r : HostRecord} {s : State} (h : finds i .leave r s) (hp : proceeds s.station.state) :
    exec (.leave r) s = atOnce s (State.testLeaving
      (State.leaveStep i ((leavingState i r s).table.order.foldl State.endWaiting (leavingState i r s)))) := by
  have hproceeds : disposition (requestOf .leave r).kind s.station.state = .proceeds := by
    rcases hp with hp | hp | hp | hp <;> rw [hp] <;> rfl
  rw [exec_leave r s h.1, commit_proceeds i .leave r s h (by decide) hproceeds]
  rfl

/-- Settles O21: what the ends and the release step leave is `Left`, which the end of LEAVING keeps. -/
theorem leaveEndsRequestsAndHolds : Obligations.LeaveEndsRequestsAndHolds := by
  refine ⟨fun i r s hfinds hproc => ?taken, fun i s => ⟨fun _ => endWaiting_of_waiting, endWaiting_of_notWaiting,
    fun h => leaveStep_of_none h i, fun e h => (leaveStep_of_some h i).trans (releaseHold_noteless e i none s)⟩⟩
  case taken =>
    have hleft := (left_of_steps rfl rfl rfl (withoutAcquire_leavingState i r s)).testLeaving.startIdle s
    exact ⟨_, exec_leave_proceeds hfinds hproc, hleft.state, hleft.timer, hleft.held, hleft.claim, hleft.slots,
      exec_leave_proceeds hfinds hproc⟩

end Sys2Proof.LeaseProofs

/-! ## The acceptance numbers (O58) -/

namespace Sys2Proof.RequestProofs
open Sys2Proof.Machine Sys2Proof.Statement Sys2Proof.LeaseProofs

/-! ### Changes of the Request Table in terms of a few -/

/-- A completion changes the table as its posting does (R106). -/
theorem finish_of_post {Q : RequestTable → Prop} (hpost : ∀ i c t, Q t → Q (t.post i c)) (i : SlotIx) (st : Status) (c : Content)
    {t : RequestTable} (ht : Q t) : Q (t.finish i st c) := by
  unfold RequestTable.finish
  split
  · exact ht
  · exact hpost _ _ _ ht

/-- So does a completion that its slot kept (R66). -/
theorem finishKept_of_post {Q : RequestTable → Prop} (hpost : ∀ i c t, Q t → Q (t.post i c)) (i : SlotIx) {t : RequestTable} (ht : Q t) :
    Q (t.finishKept i) := by
  unfold RequestTable.finishKept
  split
  · exact ht
  · split
    · exact ht
    · exact hpost _ _ _ ht

/-- What the posting of a waiting slot can do: nothing, drop a slot without a record from the order, or post one where the queue
admits it. -/
theorem postNext_cases (t : RequestTable) : t.postNext = t ∨ (∃ rest, t.postNext = { t with posting := rest }) ∨
    ∃ i c rest, t.admits = true ∧
      t.postNext = { t.freeSlot i with queue := t.queue ++ [.completion c], posting := rest } := by
  unfold RequestTable.postNext
  split
  · exact .inl rfl
  · split
    · rename_i hadmits
      split
      · exact .inr (.inl ⟨_, rfl⟩)
      · split
        · exact .inr (.inl ⟨_, rfl⟩)
        · exact .inr (.inr ⟨_, _, _, hadmits, rfl⟩)
    · exact .inl rfl

/-! ### Slots counted -/

/-- How many slots satisfy a test. -/
def slotCount (p : SlotIx → Bool) : Nat := ((List.finRange 8).filter p).length

theorem slotCount_le (p : SlotIx → Bool) : slotCount p ≤ 8 := List.length_filter_le p (List.finRange 8)

theorem length_filter_split {α : Type} {p q r : α → Bool} (hp : ∀ a, p a = (q a || r a)) (hd : ∀ a, q a = true → r a = false)
    (l : List α) : (l.filter p).length = (l.filter q).length + (l.filter r).length := by
  induction l with
  | nil => rfl
  | cons a l ih =>
    have hpa := hp a
    have hda := hd a
    cases hq : q a <;> cases hr : r a
    · simp only [List.filter_cons, hpa, hq, hr, Bool.or_self, Bool.false_eq_true, if_false, ih]
    · simp only [List.filter_cons, hpa, hq, hr, Bool.or_true, Bool.false_eq_true, if_false, if_true, List.length_cons, ih]
      omega
    · simp only [List.filter_cons, hpa, hq, hr, Bool.or_false, Bool.false_eq_true, if_false, if_true, List.length_cons, ih]
      omega
    · rw [hda hq] at hr
      cases hr

/-- The slots of a test are those of its two parts, where no slot is in both. -/
theorem slotCount_split {p q r : SlotIx → Bool} (hp : ∀ i, p i = (q i || r i)) (hd : ∀ i, q i = true → r i = false) :
    slotCount p = slotCount q + slotCount r := length_filter_split hp hd (List.finRange 8)

theorem slotCount_single (i : SlotIx) : slotCount (fun j => decide (j = i)) = 1 := by
  revert i
  decide

/-- One slot more in a test counts one more. -/
theorem slotCount_add_one {p q : SlotIx → Bool} {i : SlotIx} (hp : ∀ j, p j = (q j || decide (j = i))) (hi : q i = false) :
    slotCount p = slotCount q + 1 := by
  rw [← slotCount_single i]
  refine slotCount_split hp (fun j hj => decide_eq_false fun e => ?_)
  rw [e, hi] at hj
  cases hj

theorem of_slotCount_eq_zero {p : SlotIx → Bool} (h : slotCount p = 0) (i : SlotIx) : p i = false := by
  have hnil : (List.finRange 8).filter p = [] := List.length_eq_zero_iff.1 h
  exact Bool.eq_false_iff.2 (List.filter_eq_nil_iff.1 hnil i (List.mem_finRange i))

/-! ### The acceptance numbers -/

/-- The acceptance number in a slot, none in a free one. -/
def numberAt (t : RequestTable) (i : SlotIx) : Option Nat := (t.slot i).map Slot.accept

theorem numberAt_of_slot {t : RequestTable} {i : SlotIx} {sl : Slot} (h : t.slot i = some sl) : numberAt t i = some sl.accept := by
  rw [numberAt, h, Option.map_some]

theorem occupied_eq_numbers (t : RequestTable) : t.occupied = slotCount (fun i => (numberAt t i).isSome) := by
  simp only [numberAt, Option.isSome_map]
  rfl

/-- What the law of R77 comes to: every number lies from 1 to the count of occupied slots, and each of these stands in one slot. -/
structure Numbered (t : RequestTable) : Prop where
  range : ∀ i n, numberAt t i = some n → 1 ≤ n ∧ n ≤ t.occupied
  given : ∀ n, 1 ≤ n → n ≤ t.occupied → ∃ i, numberAt t i = some n
  once : ∀ i j n, numberAt t i = some n → numberAt t j = some n → i = j

/-- The number in a slot is one of 1 to m. -/
def numberUpTo (t : RequestTable) (m : Nat) (i : SlotIx) : Bool := (numberAt t i).any (fun n => decide (1 ≤ n ∧ n ≤ m))

theorem numberUpTo_of_number {t : RequestTable} {i : SlotIx} {n : Nat} (h : numberAt t i = some n) (m : Nat) :
    numberUpTo t m i = decide (1 ≤ n ∧ n ≤ m) := by
  rw [numberUpTo, h, Option.any_some]

theorem isSome_of_numberUpTo {t : RequestTable} {m : Nat} {i : SlotIx} (h : numberUpTo t m i = true) :
    (numberAt t i).isSome = true := by
  cases hi : numberAt t i with
  | none => rw [numberUpTo, hi] at h; cases h
  | some n => rfl

/-- In a table within the law m slots hold the numbers 1 to m. -/
theorem slotCount_numberUpTo {t : RequestTable} (ht : t.numbered) (m : Nat) (hm : m ≤ t.occupied) : slotCount (numberUpTo t m) = m := by
  induction m with
  | zero =>
    have hnone : numberUpTo t 0 = fun _ => false := funext fun i => by
      cases hi : numberAt t i with
      | none => rw [numberUpTo, hi]; rfl
      | some n => rw [numberUpTo_of_number hi, decide_eq_false]; omega
    rw [hnone]; rfl
  | succ m ih =>
    obtain ⟨hgiven, honce⟩ := ht ⟨m, Nat.lt_of_lt_of_le hm (slotCount_le _)⟩
    obtain ⟨i, hi⟩ := hgiven.1 hm
    have hi : numberAt t i = some (m + 1) := hi
    have hfree : numberUpTo t m i = false := by rw [numberUpTo_of_number hi, decide_eq_false]; omega
    rw [slotCount_add_one (i := i) (fun j => ?_) hfree, ih (Nat.le_of_succ_le hm)]
    by_cases hj : j = i
    · rw [hj, numberUpTo_of_number hi, decide_eq_true rfl, Bool.or_true, decide_eq_true]
      omega
    · rw [decide_eq_false hj, Bool.or_false]
      cases hn : numberAt t j with
      | none => simp only [numberUpTo, hn, Option.any_none]
      | some n =>
        have hne : n ≠ m + 1 := fun e => hj (honce j i (e ▸ hn) hi)
        rw [numberUpTo_of_number hn, numberUpTo_of_number hn, decide_eq_decide]
        omega

/-- With as many numbers as slots no slot has a number beyond the count. -/
theorem numbered_iff (t : RequestTable) : t.numbered ↔ Numbered t := by
  constructor
  · intro h
    have hrange : ∀ i n, numberAt t i = some n → 1 ≤ n ∧ n ≤ t.occupied := fun i n hi => by
      have hsplit := slotCount_split (p := fun i => (numberAt t i).isSome) (q := numberUpTo t t.occupied)
        (r := fun i => (numberAt t i).isSome && !numberUpTo t t.occupied i)
        (fun j => by
          cases hj : numberUpTo t t.occupied j
          · rw [Bool.not_false, Bool.and_true, Bool.false_or]
          · rw [isSome_of_numberUpTo hj, Bool.true_or])
        (fun j hj => by rw [hj, Bool.not_true, Bool.and_false])
      rw [← occupied_eq_numbers, slotCount_numberUpTo h t.occupied (Nat.le_refl _)] at hsplit
      have hrest := of_slotCount_eq_zero (Nat.left_eq_add.1 hsplit) i
      rw [hi, numberUpTo_of_number hi, Option.isSome_some, Bool.true_and, Bool.not_eq_false'] at hrest
      exact of_decide_eq_true hrest
    have hfin : ∀ n, 1 ≤ n → n ≤ t.occupied → ∃ m : Fin 8, n = m.val + 1 := fun n h1 hn => by
      have hle : n ≤ 8 := Nat.le_trans hn (slotCount_le _)
      exact ⟨⟨n - 1, by omega⟩, by simp only; omega⟩
    refine ⟨hrange, fun n h1 hn => ?_, fun i j n hi hj => ?_⟩
    · obtain ⟨m, rfl⟩ := hfin n h1 hn
      exact (h m).1.1 hn
    · obtain ⟨h1, hn⟩ := hrange i n hi
      obtain ⟨m, rfl⟩ := hfin n h1 hn
      exact (h m).2 i j hi hj
  · intro h n
    refine ⟨⟨fun hn => h.given _ (Nat.le_add_left 1 _) hn, fun ⟨i, hi⟩ => ?_⟩, fun i j hi hj => h.once i j _ hi hj⟩
    exact (h.range i _ hi).2

/-! ### What keeps the numbers -/

/-- A change that leaves the numbers of every slot. -/
theorem numbered_congr {t u : RequestTable} (h : ∀ j, numberAt u j = numberAt t j) (ht : t.numbered) : u.numbered := by
  have hocc : u.occupied = t.occupied := by simp only [occupied_eq_numbers, h]
  intro n
  have hn := ht n
  simp only [numberAt] at h
  simp only [h, hocc]
  exact hn

theorem numbered_modifySlot {t : RequestTable} {f : Slot → Slot} (hf : ∀ x, (f x).accept = x.accept) (i : SlotIx) (ht : t.numbered) :
    (t.modifySlot i f).numbered := by
  refine numbered_congr (fun j => ?_) ht
  rw [numberAt, RequestTable.slot_modifySlot]
  split
  · rename_i hj
    rw [hj, Option.map_map]
    exact congrArg (fun g => (t.slot i).map g) (funext hf)
  · rfl

/-- The last number is given to the slot filled (R79). -/
theorem numbered_setSlot {t : RequestTable} {i : SlotIx} (hi : t.slot i = none) {x : Slot} (hx : x.accept = t.occupied + 1)
    (ht : t.numbered) : (t.setSlot i (some x)).numbered := by
  have h := (numbered_iff t).1 ht
  have hfree : numberAt t i = none := by rw [numberAt, hi]; rfl
  have hself : numberAt (t.setSlot i (some x)) i = some (t.occupied + 1) := by
    rw [numberAt_of_slot (slot_setSlot_self i _ t), hx]
  have hother : ∀ j, j ≠ i → numberAt (t.setSlot i (some x)) j = numberAt t j := fun j hj => by
    rw [numberAt, RequestTable.slot_setSlot, if_neg hj]; rfl
  have hcount : (t.setSlot i (some x)).occupied = t.occupied + 1 := by
    rw [occupied_eq_numbers, occupied_eq_numbers]
    refine slotCount_add_one (i := i) (fun j => ?_) (by rw [hfree]; rfl)
    by_cases hj : j = i
    · rw [hj, hself, decide_eq_true rfl, Bool.or_true]; rfl
    · rw [hother j hj, decide_eq_false hj, Bool.or_false]
  have hold : ∀ j n, numberAt (t.setSlot i (some x)) j = some n → (j = i ∧ n = t.occupied + 1) ∨
      (j ≠ i ∧ numberAt t j = some n) := fun j n hn => by
    by_cases hj : j = i
    · rw [hj, hself] at hn
      exact .inl ⟨hj, (Option.some.inj hn).symm⟩
    · exact .inr ⟨hj, (hother j hj).symm.trans hn⟩
  refine (numbered_iff _).2 ⟨fun j n hn => ?_, fun n h1 hn => ?_, fun j k n hj hk => ?_⟩
  · rw [hcount]
    rcases hold j n hn with ⟨-, rfl⟩ | ⟨-, hn⟩
    · omega
    · have := h.range j n hn
      omega
  · rw [hcount] at hn
    by_cases hlast : n = t.occupied + 1
    · exact ⟨i, hlast ▸ hself⟩
    · obtain ⟨j, hj⟩ := h.given n h1 (by omega)
      have hji : j ≠ i := fun e => by rw [e, hfree] at hj; cases hj
      exact ⟨j, (hother j hji).trans hj⟩
  · rcases hold j n hj with ⟨hji, hlast⟩ | ⟨-, gj⟩ <;> rcases hold k n hk with ⟨hki, hlast'⟩ | ⟨-, gk⟩
    · exact hji.trans hki.symm
    · have := h.range k n gk
      omega
    · have := h.range j n gj
      omega
    · exact h.once j k n gj gk

section Freed
variable {i : SlotIx} {t : RequestTable} {sl : Slot} (hi : t.slot i = some sl)
include hi

theorem numberAt_freeSlot_self : numberAt (t.freeSlot i) i = none := by
  rw [numberAt, RequestTable.slot_freeSlot i i t sl hi, if_pos rfl]; rfl

theorem numberAt_freeSlot_of_ne {j : SlotIx} (hj : j ≠ i) :
    numberAt (t.freeSlot i) j = (numberAt t j).map (fun n => if sl.accept < n then n - 1 else n) := by
  have hlower : ∀ x : Slot, (RequestTable.lower sl.accept x).accept = if sl.accept < x.accept then x.accept - 1 else x.accept :=
    fun x => by unfold RequestTable.lower; split <;> rfl
  rw [numberAt, numberAt, RequestTable.slot_freeSlot i j t sl hi, if_neg hj, Option.map_map, Option.map_map]
  exact congrArg (fun g => (t.slot j).map g) (funext hlower)

theorem occupied_freeSlot : t.occupied = (t.freeSlot i).occupied + 1 := by
  rw [occupied_eq_numbers, occupied_eq_numbers]
  refine slotCount_add_one (i := i) (fun j => ?_) (by rw [numberAt_freeSlot_self hi]; rfl)
  by_cases hj : j = i
  · rw [hj, numberAt_of_slot hi, decide_eq_true rfl, Bool.or_true]; rfl
  · rw [numberAt_freeSlot_of_ne hi hj, decide_eq_false hj, Bool.or_false, Option.isSome_map]

/-- A number after the slot is freed is one below the freed number, or one above it lowered by 1. -/
theorem numberAt_freeSlot_iff (h : Numbered t) (j : SlotIx) (n : Nat) : numberAt (t.freeSlot i) j = some n ↔
    (n < sl.accept ∧ numberAt t j = some n) ∨ (sl.accept ≤ n ∧ numberAt t j = some (n + 1)) := by
  have hself := numberAt_of_slot hi
  by_cases hj : j = i
  · subst hj
    rw [numberAt_freeSlot_self hi, hself, Option.some.injEq, Option.some.injEq]
    refine iff_of_false (fun hn => nomatch hn) ?_
    omega
  · rw [numberAt_freeSlot_of_ne hi hj]
    cases hm : numberAt t j with
    | none => simp only [Option.map_none, reduceCtorEq, and_false, or_self]
    | some m =>
      have hne : m ≠ sl.accept := fun e => hj (h.once j i m hm (e ▸ hself))
      rw [Option.map_some, Option.some.injEq, Option.some.injEq, Option.some.injEq]
      split <;> omega

end Freed

/-- A slot freed takes its number with it, and the higher ones close the gap (R77). -/
theorem numbered_freeSlot (i : SlotIx) {t : RequestTable} (ht : t.numbered) : (t.freeSlot i).numbered := by
  cases hi : t.slot i with
  | none => simpa only [RequestTable.freeSlot, hi] using ht
  | some sl =>
    have h := (numbered_iff t).1 ht
    have hiff := numberAt_freeSlot_iff hi h
    have hcount := occupied_freeSlot hi
    have hfreed := h.range i _ (numberAt_of_slot hi)
    refine (numbered_iff _).2 ⟨fun j n hn => ?_, fun n h1 hn => ?_, fun j k n hj hk => ?_⟩
    · rcases (hiff j n).1 hn with ⟨hlt, hn⟩ | ⟨hge, hn⟩
      · have := h.range j n hn
        omega
      · have := h.range j (n + 1) hn
        omega
    · by_cases hlt : n < sl.accept
      · obtain ⟨j, hj⟩ := h.given n h1 (by omega)
        exact ⟨j, (hiff j n).2 (.inl ⟨hlt, hj⟩)⟩
      · obtain ⟨j, hj⟩ := h.given (n + 1) (by omega) (by omega)
        exact ⟨j, (hiff j n).2 (.inr ⟨Nat.le_of_not_lt hlt, hj⟩)⟩
    · rcases (hiff j n).1 hj with ⟨hlt, hj⟩ | ⟨hge, hj⟩ <;> rcases (hiff k n).1 hk with ⟨hlt', hk⟩ | ⟨hge', hk⟩
      · exact h.once j k n hj hk
      · omega
      · omega
      · exact h.once j k (n + 1) hj hk

theorem numbered_post (i : SlotIx) (c : Completion) (t : RequestTable) (ht : t.numbered) : (t.post i c).numbered := by
  by_cases h : t.admits = true ∧ t.posting = []
  · rw [RequestTable.post_admitted i c t h.1 h.2]
    exact numbered_freeSlot i ht
  · rw [RequestTable.post_waits i c t h]
    exact numbered_modifySlot (f := fun sl => { sl with phase := .posting, completion := some c }) (fun _ => rfl) i ht

theorem numbered_postNext {t : RequestTable} (ht : t.numbered) : t.postNext.numbered := by
  rcases postNext_cases t with h | ⟨rest, h⟩ | ⟨i, c, rest, -, h⟩
  · rw [h]; exact ht
  · rw [h]; exact ht
  · rw [h]; exact numbered_freeSlot i ht

/-- Each elementary change of a step keeps the acceptance numbers. -/
theorem numbered_kept : Kept (fun s => s.table.numbered) where
  other := fun s t _ _ ht _ h => by rw [ht]; exact h
  finish := fun i st c s h => finish_of_post numbered_post i st c h
  slot := fun i f s hf h => numbered_modifySlot hf i h
  finishKept := fun i s h => finishKept_of_post numbered_post i h
  postNext := fun s h => numbered_postNext h
  notice := fun n s h => numbered_congr (fun j => by rw [numberAt, (raiseNotice_table n s).2.1 j]; rfl) h
  occupy := fun i c tag r s hi h => numbered_setSlot (RequestTable.lowestFree_slot i s.table hi) rfl h
  fault := fun _ _ _ h => h
  read := fun _ _ _ _ _ h => h
  drop := fun _ h => h
  replica := fun _ _ _ _ h => h
  join := fun _ _ _ _ _ _ _ h => h
  leave := fun _ _ _ _ _ _ _ h => h
  release := fun e n i c s _ h =>
    numbered_modifySlot (f := fun sl => { sl with phase := .releasing, completion := c }) (fun _ => rfl) i h
  remove := fun _ _ h => h
  issue := fun i a s _ h => numbered_modifySlot (f := fun sl => { sl with phase := .claiming }) (fun _ => rfl) i h
  claims := fun _ _ _ _ h => h
  unclaim := fun _ _ h => h
  grant := fun _ _ _ _ _ h => h
  halt := fun _ h => h
  restart := fun s _ _ ht _ => by rw [ht]; exact numbered_initial

/-- Settles O58: the numbers as a set are kept by each elementary change, hence by every step. -/
theorem stepKeepsAcceptanceNumbers : Obligations.StepKeepsAcceptanceNumbers := numbered_kept.step

end Sys2Proof.RequestProofs

/-! ## The completion queue and the read position (O56) -/

namespace Sys2Proof.RequestProofs
open Sys2Proof.Machine Sys2Proof.Statement Sys2Proof.LeaseProofs

/-! ### The length of a record (R207) -/

theorem length_completion_bytes (c : Completion) : c.bytes.length = 6 + c.content.bytes.length := by
  simp only [Completion.bytes, List.length_cons]; omega

theorem length_roster_bytes (q : Byte) (first : StationAddr) (n : Nat) (added departed : List StationAddr) :
    (Notice.roster q first n added departed).bytes.length = 7 + added.length + departed.length := by
  simp only [Notice.bytes, List.length_append, List.length_cons, List.length_map]; omega

/-- Every record has five bytes at least, and the first is their count, as far as a byte counts. -/
theorem record_bytes_spec (q : QueueRecord) : 5 ≤ q.bytes.length ∧ (q.bytes.getD 0 0).toNat = q.bytes.length % 256 := by
  cases q with
  | completion c =>
    have hlen := length_completion_bytes c
    refine ⟨by rw [QueueRecord.bytes]; omega, ?_⟩
    rw [QueueRecord.bytes, hlen]
    exact BitVec.toNat_ofNat ..
  | notice n =>
    cases n with
    | state cause before after => exact ⟨Nat.le_refl 5, rfl⟩
    | roster r first count added departed =>
      have hlen := length_roster_bytes r first count added departed
      refine ⟨by rw [QueueRecord.bytes]; omega, ?_⟩
      rw [QueueRecord.bytes, hlen]
      exact BitVec.toNat_ofNat ..

theorem record_bytes_pos (q : QueueRecord) : 0 < q.bytes.length := Nat.lt_of_lt_of_le (by decide) (record_bytes_spec q).1

/-! ### What keeps the queue and the read position -/

/-- A table whose queue is within R105 while the read position n is within its head record (R190). -/
structure QueueLawful (n : Nat) (t : RequestTable) : Prop where
  records : t.queue.length ≤ 16
  completions : t.completions ≤ 14
  empty : t.queue = [] → n = 0
  head : ∀ r ∈ t.queue.head?, n < r.bytes.length

theorem queueLawful_iff (s : State) : QueueLawful s.host.readPos s.table ↔ s.queueWithinLimits ∧ s.readPositionWithin :=
  ⟨fun h => ⟨⟨h.records, h.completions⟩, h.empty, h.head⟩, fun ⟨⟨h1, h2⟩, h3, h4⟩ => ⟨h1, h2, h3, h4⟩⟩

/-- The law hangs on the queue alone. -/
theorem QueueLawful.congr {n : Nat} {t u : RequestTable} (h : QueueLawful n t) (hq : u.queue = t.queue) : QueueLawful n u := by
  have hc : u.completions = t.completions := by simp only [RequestTable.completions, hq]
  exact ⟨hq ▸ h.records, hc ▸ h.completions, hq ▸ h.empty, hq ▸ h.head⟩

/-- A record enters at the tail where there is a place for it. -/
theorem QueueLawful.append {n : Nat} {t u : RequestTable} (h : QueueLawful n t) (r : QueueRecord) (hq : u.queue = t.queue ++ [r])
    (hlen : t.queue.length < 16) (hc : r.isCompletion = true → t.completions < 14) : QueueLawful n u where
  records := by rw [hq, List.length_append]; exact hlen
  completions := by
    have hold := h.completions
    have hu : u.completions = t.completions + ([r].filter QueueRecord.isCompletion).length := by
      simp only [RequestTable.completions, hq, List.filter_append, List.length_append]
    cases hr : r.isCompletion with
    | false => rw [hu, List.filter_cons, hr]; exact hold
    | true => rw [hu, List.filter_cons, hr]; exact hc hr
  empty := fun hu => by simp [hq] at hu
  head := by
    rw [hq]
    cases ht : t.queue with
    | nil =>
      rintro _ ⟨⟩
      rw [h.empty ht]
      exact record_bytes_pos r
    | cons a l =>
      have hhead := h.head
      rw [ht] at hhead
      exact hhead

theorem QueueLawful.post {n : Nat} (i : SlotIx) (c : Completion) (t : RequestTable) (h : QueueLawful n t) : QueueLawful n (t.post i c) := by
  by_cases hp : t.admits = true ∧ t.posting = []
  · obtain ⟨hc, hlen⟩ := (RequestTable.admits_iff t).1 hp.1
    rw [RequestTable.post_admitted i c t hp.1 hp.2]
    exact h.append _ rfl hlen (fun _ => hc)
  · rw [RequestTable.post_waits i c t hp]
    exact h.congr (RequestTable.modifySlot_queue ..)

theorem QueueLawful.postNext {n : Nat} {t : RequestTable} (h : QueueLawful n t) : QueueLawful n t.postNext := by
  rcases postNext_cases t with hp | ⟨rest, hp⟩ | ⟨i, c, rest, hadmits, hp⟩
  · rw [hp]; exact h
  · rw [hp]; exact h.congr rfl
  · obtain ⟨hc, hlen⟩ := (RequestTable.admits_iff t).1 hadmits
    rw [hp]
    exact h.append _ rfl hlen (fun _ => hc)

/-- The head record leaves and the reading of the next begins at its first byte. -/
theorem QueueLawful.dropHead {n : Nat} {t : RequestTable} (h : QueueLawful n t) : QueueLawful 0 t.dropHead where
  records := Nat.le_trans (List.tail_sublist t.queue).length_le h.records
  completions := Nat.le_trans ((List.tail_sublist t.queue).filter _).length_le h.completions
  empty := fun _ => rfl
  head := fun r _ => record_bytes_pos r

/-- Each elementary change of a step keeps the queue and the read position. -/
theorem queueLawful_kept : Kept (fun s => QueueLawful s.host.readPos s.table) where
  other := fun s t _ _ ht hr h => by rw [ht, hr]; exact h
  finish := fun i st c s h => finish_of_post QueueLawful.post i st c h
  slot := fun i f s _ h => h.congr (RequestTable.modifySlot_queue ..)
  finishKept := fun i s h => finishKept_of_post QueueLawful.post i h
  postNext := fun s h => h.postNext
  notice := fun n s h => by
    by_cases hroom : s.table.queue.length < 16
    · rw [raiseNotice_room n hroom]
      exact h.append (.notice n) rfl hroom (fun hc => by cases hc)
    · rw [raiseNotice_full n (Nat.le_of_not_lt hroom)]
      exact h
  occupy := fun _ _ _ _ _ _ h => h.congr rfl
  fault := fun _ _ _ h => h.congr rfl
  read := fun s q rest hq hlt h => ⟨h.records, h.completions, fun he => by simp [hq] at he, fun r hr => by
    rw [hq] at hr
    cases hr
    exact hlt⟩
  drop := fun s h => h.dropHead
  replica := fun _ _ _ _ h => h
  join := fun _ _ _ _ _ _ _ h => h
  leave := fun _ _ _ _ _ _ _ h => h
  release := fun _ _ _ _ _ _ h => h.congr (RequestTable.modifySlot_queue ..)
  remove := fun _ _ h => h
  issue := fun _ _ _ _ h => h.congr (RequestTable.modifySlot_queue ..)
  claims := fun _ _ _ _ h => h
  unclaim := fun _ _ h => h
  grant := fun _ _ _ _ _ h => h
  halt := fun _ h => h
  restart := fun s _ _ ht hr => by rw [ht, hr]; exact ⟨by decide, by decide, fun _ => rfl, fun r _ => record_bytes_pos r⟩

/-- Settles O56: the law of the queue is kept by each elementary change, hence by every step. -/
theorem stepKeepsQueueAndReadPosition : Obligations.StepKeepsQueueAndReadPosition := fun s t hq hr hstep =>
  (queueLawful_iff t).1 (queueLawful_kept.step s t ((queueLawful_iff s).2 ⟨hq, hr⟩) hstep)

end Sys2Proof.RequestProofs

/-! ## Posting, notices and the reading of COMPLETION (O8, O9, O23) -/

namespace Sys2Proof.RequestProofs
open Sys2Proof.Machine Sys2Proof.Statement Sys2Proof.LeaseProofs

/-! ### A completion made ready (R106) -/

theorem finish_of_slot {i : SlotIx} {t : RequestTable} {sl : Slot} (hs : t.slot i = some sl) (st : Status) (c : Content) :
    t.finish i st c = t.post i (sl.record st c) := by
  simp only [RequestTable.finish, hs]

/-- A slot freed leaves the others, their acceptance numbers lowered, and is free. -/
theorem slots_freeSlot {i : SlotIx} {t : RequestTable} {sl : Slot} (hs : t.slot i = some sl) : (t.freeSlot i).slot i = none ∧
    ∀ j, j ≠ i → (t.freeSlot i).slot j = (t.slot j).map (RequestTable.lower sl.accept) :=
  ⟨(RequestTable.slot_freeSlot i i t sl hs).trans (if_pos rfl),
    fun j hj => (RequestTable.slot_freeSlot i j t sl hs).trans (if_neg hj)⟩

theorem slots_modifySlot {i : SlotIx} {t : RequestTable} {sl : Slot} (hs : t.slot i = some sl) (f : Slot → Slot) :
    (t.modifySlot i f).slot i = some (f sl) ∧ ∀ j, j ≠ i → (t.modifySlot i f).slot j = t.slot j :=
  ⟨by rw [RequestTable.slot_modifySlot, if_pos rfl, hs, Option.map_some],
    fun j hj => (RequestTable.slot_modifySlot i j f t).trans (if_neg hj)⟩

/-! ### The slots that wait to post -/

section Posting
variable {i : SlotIx} {rest : List SlotIx} {t : RequestTable} (hp : t.posting = i :: rest) (ht : takesCompletion t)
include hp ht

theorem postNext_posts {sl : Slot} {c : Completion} (hs : t.slot i = some sl) (hc : sl.completion = some c) :
    t.postNext = { t.freeSlot i with queue := t.queue ++ [.completion c], posting := rest } := by
  have hadmits := (RequestTable.admits_iff t).2 ht
  simp only [RequestTable.postNext, hp, hadmits, hs, hc, if_true]

/-- Whatever the slot holds, it leaves the posting order. -/
theorem posting_postNext : t.postNext.posting = rest := by
  have hadmits := (RequestTable.admits_iff t).2 ht
  unfold RequestTable.postNext
  simp only [hp, hadmits, if_true]
  split
  · rfl
  · split <;> rfl

end Posting

theorem postNext_of_stuck {t : RequestTable} (h : t.posting = [] ∨ ¬ takesCompletion t) : t.postNext = t :=
  RequestTable.postNext_stuck t (h.imp_right (mt (RequestTable.admits_iff t).1))

theorem postWaiting_of_stuck (n : Nat) {t : RequestTable} (h : t.posting = [] ∨ ¬ takesCompletion t) :
    RequestTable.postWaiting n t = t := by
  induction n with
  | zero => rfl
  | succ n ih => rw [RequestTable.postWaiting, postNext_of_stuck h, ih]

/-- As many postings as slots wait leave none waiting, or a queue that admits none. -/
theorem postWaiting_ends (n : Nat) (t : RequestTable) (hn : t.posting.length ≤ n) :
    (RequestTable.postWaiting n t).posting = [] ∨ ¬ takesCompletion (RequestTable.postWaiting n t) := by
  induction n generalizing t with
  | zero => exact .inl (List.length_eq_zero_iff.1 (Nat.le_zero.1 hn))
  | succ n ih =>
    by_cases hstuck : t.posting = [] ∨ ¬ takesCompletion t
    · rw [postWaiting_of_stuck (n + 1) hstuck]
      exact hstuck
    · obtain ⟨hne, ht⟩ := not_or.1 hstuck
      obtain ⟨i, rest, hp⟩ := List.exists_cons_of_ne_nil hne
      have hrest := posting_postNext hp (Classical.not_not.1 ht)
      refine ih t.postNext ?_
      rw [hrest]
      rw [hp] at hn
      exact Nat.le_of_succ_le_succ hn

/-- Settles O8: the two outcomes of a completion, and the postings one after another. -/
theorem completionsArePostedInOrder : Obligations.CompletionsArePostedInOrder := by
  refine ⟨fun t i sl st c hs => ?ready, fun s i rest sl c hr hp hs hc => ?command, fun n t => ?waiting⟩
  case ready =>
    have hiff : t.completions < 14 ∧ t.queue.length < 16 ∧ t.posting = [] ↔ t.admits = true ∧ t.posting = [] := by
      rw [RequestTable.admits_iff, and_assoc]
    rw [hiff, finish_of_slot hs]
    refine ⟨fun h => ?_, fun h => ?_⟩
    · obtain ⟨hself, hothers⟩ := slots_freeSlot hs
      rw [RequestTable.post_admitted i _ t h.1 h.2]
      exact ⟨rfl, hself, (RequestTable.freeSlot_posting i t).trans h.2, RequestTable.freeSlot_faults i t, hothers⟩
    · obtain ⟨hself, hothers⟩ := slots_modifySlot hs (fun x => { x with phase := .posting, completion := some (sl.record st c) })
      rw [RequestTable.post_waits i _ t h]
      exact ⟨RequestTable.modifySlot_queue .., rfl, RequestTable.modifySlot_faults .., hself, hothers⟩
  case command =>
    rw [exec_slotPosting s hr]
    refine ⟨fun ht => ?_, fun ht => ?_⟩
    · rw [State.mapTable, postNext_posts hp ht hs hc]
    · rw [State.mapTable, postNext_of_stuck (.inr ht)]
  case waiting =>
    refine ⟨postWaiting_of_stuck n, fun i rest sl c hp hs hc ht => ?_, postWaiting_ends 8 t⟩
    rw [RequestTable.postWaiting, postNext_posts hp ht hs hc]

/-- Settles O9: the two outcomes of a notice. -/
theorem noticeEntersOrIsLost : Obligations.NoticeEntersOrIsLost := fun n _ => ⟨raiseNotice_room n, raiseNotice_full n⟩

/-! ### A read of COMPLETION (R190, R191) -/

theorem readCompletion_of_empty {s : State} (h : s.table.queue = []) (first : Bool) : s.readCompletion first = s.driveData 0 := by
  simp only [State.readCompletion, h]

section Read
variable {s : State} {q : QueueRecord} {rest : List QueueRecord} (hq : s.table.queue = q :: rest)
include hq

theorem completionByte_of_head : s.completionByte = q.bytes.getD s.host.readPos 0 := by
  simp only [State.completionByte, hq]

theorem readCompletion_of_head (first : Bool) :
    s.readCompletion first = (s.driveData (q.bytes.getD s.host.readPos 0)).advanceRead first q := by
  rw [← completionByte_of_head hq]
  simp only [State.readCompletion, hq]

/-- Before its last byte the record stays. -/
theorem readCompletion_within (first : Bool) (h : s.host.readPos + 1 < q.bytes.length) : s.readCompletion first =
    { s with host := { s.host with dataOut := q.bytes.getD s.host.readPos 0, readPos := s.host.readPos + 1 } } := by
  rw [readCompletion_of_head hq]
  exact if_pos h

/-- With its last byte it leaves, and the slots in POSTING follow unless a notice goes first. -/
theorem readCompletion_last (first : Bool) (h : q.bytes.length ≤ s.host.readPos + 1) : s.readCompletion first =
    { s with
      host := { s.host with dataOut := q.bytes.getD s.host.readPos 0, readPos := 0 }
      table := if first then { s.table with queue := rest } else RequestTable.postWaiting 8 { s.table with queue := rest } } := by
  have hdrop : s.table.dropHead = { s.table with queue := rest } := by rw [RequestTable.dropHead, hq, List.tail_cons]
  rw [readCompletion_of_head hq, ← hdrop]
  exact if_neg (Nat.not_lt.2 h)

end Read

/-- Settles O23: the reads by the head record and the position in it, and the first byte of every record. -/
theorem completionReadDeliversBytes : Obligations.CompletionReadDeliversBytes := by
  refine ⟨fun first y s hr hy hb => ?_, record_bytes_spec⟩
  have hwf : y.wf = true := decide_eq_true hy
  rw [exec_completionRead first y s hr hwf hb]
  refine ⟨fun hq => ?_, fun q rest hq => ⟨fun h => ?_, fun h => ?_⟩⟩
  · rw [readCompletion_of_empty hq]; rfl
  · rw [readCompletion_within hq first h]
  · rw [readCompletion_last hq first h]

end Sys2Proof.RequestProofs

/-! ## Requests at the port (O6, O7) -/

namespace Sys2Proof.RequestProofs
open Sys2Proof.Machine Sys2Proof.Statement Sys2Proof.LeaseProofs

/-! ### The commit of a record (R186) -/

/-- Outside reset a request command commits its record. -/
theorem exec_request (k : RequestKind) (r : HostRecord) (s : State) (h : s.inReset = false) :
    exec (request k r) s = atOnce s (s.commit k r) := by
  cases k <;> exact State.run_running s _ h

/-- A commit that brings no frame is all that happens. -/
theorem exec_request_quiet {k : RequestKind} {r : HostRecord} {s t : State} (h : s.inReset = false) (ht : s.commit k r = t)
    (ho : t.outbound = s.outbound) (hf : t.ring.forwarding = s.ring.forwarding) : exec (request k r) s = .next t := by
  rw [exec_request k r s h, ht, atOnce, State.startIdle_quiet t s ho hf]

@[simp] theorem requestOf_kind (k : RequestKind) (r : HostRecord) : (requestOf k r).kind = k := by cases k <;> rfl

theorem commit_malformed {k : RequestKind} {r : HostRecord} (h : formOk k r = false) (s : State) : s.commit k r = dropped s := by
  simp only [State.commit, h, Bool.not_false, if_true]
  rfl

/-- A record of good form that is no RESTART of a configured station is offered to the Request Table. -/
theorem commit_offers {k : RequestKind} {r : HostRecord} {s : State} (h : formOk k r = true)
    (hk : k = .restart → s.station.state = .unconfigured) : s.commit k r =
      State.offerRequest r.clientNo r.tag (requestOf k r) { s with host := { s.host with assembly := .empty } } := by
  have hrestart : ¬ (k = .restart ∧ s.station.state ≠ .unconfigured) := fun ⟨e, hne⟩ => hne (hk e)
  simp only [State.commit, h, Bool.not_true, Bool.false_eq_true, if_false, if_neg hrestart]

/-- No slot is free exactly when every slot is occupied. -/
theorem lowestFree_eq_none_iff (t : RequestTable) : t.lowestFree = none ↔ ∀ i, t.slot i ≠ none := by
  simp [RequestTable.lowestFree, List.find?_eq_none]

theorem commit_full {k : RequestKind} {r : HostRecord} {s : State} (h : formOk k r = true) (hfull : ∀ i, s.table.slot i ≠ none)
    (hk : k = .restart → s.station.state = .unconfigured) : s.commit k r = dropped s := by
  rw [commit_offers h hk]
  simp only [State.offerRequest, (lowestFree_eq_none_iff s.table).2 hfull]
  rfl

/-- A record that the station state refuses completes in the slot it was accepted into (R80). -/
theorem commit_notReady {i : SlotIx} {k : RequestKind} {r : HostRecord} {s : State} (h : finds i k r s)
    (hk : k = .restart → s.station.state = .unconfigured) (hd : disposition k s.station.state = .notReady) :
    s.commit k r = (accepted i k r s).finish i .notReady .none := by
  obtain ⟨-, hform, hfree⟩ := h
  rw [commit_offers hform hk]
  simp only [State.offerRequest, hfree, requestOf_kind, hd]
  rfl

theorem commit_aborted {i : SlotIx} {k : RequestKind} {r : HostRecord} {s : State} (h : finds i k r s)
    (hk : k = .restart → s.station.state = .unconfigured) (hd : disposition k s.station.state = .aborted) :
    s.commit k r = (accepted i k r s).finish i .aborted .none := by
  obtain ⟨-, hform, hfree⟩ := h
  rw [commit_offers hform hk]
  simp only [State.offerRequest, hfree, requestOf_kind, hd]
  rfl

/-! ### The form of a record (R187) -/

/-- The form is good when the declared length is the bytes' count, the client is at most 7, and the length is one of the kind's. -/
theorem formOk_iff (k : RequestKind) (r : HostRecord) : formOk k r = true ↔
    r.declared.toNat = 4 + r.body.length ∧ r.client.toNat ≤ 7 ∧ lengthAllowed k r = true := by
  simp only [formOk, HostRecord.wf, Bool.and_eq_true, decide_eq_true_eq, and_assoc]
  exact and_congr_right fun _ => and_comm

/-- Settles O6: the form kind by kind, and the two ways of a record to be dropped. -/
theorem unfitRecordIsRefused : Obligations.UnfitRecordIsRefused := by
  refine ⟨fun k r s => ⟨fun hr hform => ?malformed, ?form⟩, fun k r s hr hform hfull hk => ?full⟩
  case malformed => exact exec_request_quiet hr (commit_malformed hform s) rfl rfl
  case form =>
    rw [formOk_iff]
    refine and_congr_right fun _ => and_congr_right fun _ => ?_
    cases k with
    | acquire => simp only [lengthAllowed, Bool.or_eq_true, decide_eq_true_eq]
    | release => simp only [lengthAllowed, Bool.and_eq_true, decide_eq_true_eq]
    | _ => exact decide_eq_true_iff
  case full => exact exec_request_quiet hr (commit_full hform hfull hk) rfl rfl

/-! ### The table of R80 -/

/-- The entries that R80 marks NOT_READY. -/
theorem disposition_notReady {k : RequestKind} {st : StationState} (h : notReadyIn k st) : disposition k st = .notReady := by
  rcases h with ⟨rfl, hc, hq, hs⟩ | ⟨hp, rfl⟩ | ⟨rfl, rfl | rfl | rfl⟩ | ⟨rfl, hq, hs, -⟩
  · cases k with
    | configure => exact absurd rfl hc
    | query => exact absurd rfl hq
    | stats => exact absurd rfl hs
    | _ => rfl
  · rcases hp with rfl | rfl | rfl | rfl <;> rfl
  · rfl
  · rfl
  · rfl
  · cases k with
    | query => exact absurd rfl hq
    | stats => exact absurd rfl hs
    | _ => rfl

/-- A RESTART that is refused is one in UNCONFIGURED. -/
theorem unconfigured_of_notReadyIn {k : RequestKind} {st : StationState} (h : notReadyIn k st) (hk : k = .restart) :
    st = .unconfigured := by
  subst hk
  rcases h with ⟨hst, -⟩ | ⟨-, ⟨⟩⟩ | ⟨-, h⟩ | ⟨-, -, -, hne⟩
  · exact hst
  · rcases h with h | h | h <;> cases h
  · exact absurd rfl hne

/-- Settles O7: the rows of R80 that refuse. -/
theorem stationStateRefusesRequest : Obligations.StationStateRefusesRequest := by
  intro i k r s hfinds
  refine ⟨fun hrefuses => ?notReady, fun hk hleaving => ?aborted⟩
  case notReady =>
    exact exec_request_quiet hfinds.1
      (commit_notReady hfinds (unconfigured_of_notReadyIn hrefuses) (disposition_notReady hrefuses)) rfl rfl
  case aborted =>
    subst hk
    exact exec_request_quiet hfinds.1 (commit_aborted hfinds (fun h => nomatch h) (by rw [hleaving]; rfl)) rfl rfl

end Sys2Proof.RequestProofs

/-! ## ACQUIRE, QUERY, STATS, CLEAR_FAULT and RESTART (O11, O19, O20, O22) -/

namespace Sys2Proof.RequestProofs
open Sys2Proof.Machine Sys2Proof.Statement Sys2Proof.LeaseProofs

/-! ### The checks of an ACQUIRE (R84) -/

theorem requestResource_eq_none_iff (b : Byte) : requestResource b = none ↔ 64 ≤ b.toNat := by
  unfold requestResource
  split
  · rename_i h; simpa using h
  · rename_i h; simpa using h

/-- A coding of two values has none where neither is met. -/
theorem two_codes_eq_none_iff {α : Type} (p q : Prop) [Decidable p] [Decidable q] (x y : α) :
    (if p then some x else if q then some y else none) = none ↔ ¬ p ∧ ¬ q := by
  by_cases hp : p <;> by_cases hq : q <;> simp [hp, hq]

theorem requestMode_eq_none_iff (b : Byte) : requestMode b = none ↔ b ≠ 1 ∧ b ≠ 2 := two_codes_eq_none_iff ..

theorem requestWait_eq_none_iff (b : Byte) : requestWait b = none ↔ b ≠ 0 ∧ b ≠ 1 := two_codes_eq_none_iff ..

/-- An ACQUIRE does not start where one of its fields is out of range. -/
theorem startAcquire_eq_none_iff (g m w : Byte) (f : Option Byte) : startAcquire g m w f = none ↔
    requestResource g = none ∨ requestMode m = none ∨ requestWait w = none ∨ ∃ b, f = some b ∧ requestResource b = none := by
  unfold startAcquire
  cases requestResource g with
  | none => simp
  | some k =>
    cases requestMode m with
    | none => simp
    | some m =>
      cases requestWait w with
      | none => simp
      | some w =>
        cases f with
        | none => simp
        | some b => cases hb : requestResource b <;> simp [hb]

theorem acquireOf_eq_none_iff (r : HostRecord) : acquireOf r = none ↔
    64 ≤ (r.field 0).toNat ∨ (r.field 1 ≠ 1 ∧ r.field 1 ≠ 2) ∨ (r.field 2 ≠ 0 ∧ r.field 2 ≠ 1) ∨
      (r.declared.toNat = 8 ∧ 64 ≤ (r.field 3).toNat) := by
  have hfollow : (∃ b, (if r.declared.toNat = 8 then some (r.field 3) else none) = some b ∧ requestResource b = none) ↔
      r.declared.toNat = 8 ∧ 64 ≤ (r.field 3).toNat := by
    by_cases h : r.declared.toNat = 8 <;> simp [h, requestResource_eq_none_iff]
  rw [acquireOf, startAcquire_eq_none_iff, requestResource_eq_none_iff, requestMode_eq_none_iff, requestWait_eq_none_iff, hfollow]

/-- The handling of an ACQUIRE record in the slot it was accepted into. -/
def acquireHandled (i : SlotIx) (r : HostRecord) (s : State) : State :=
  (accepted i .acquire r s).handleAcquire i r.clientNo r.tag (r.field 0) (r.field 1) (r.field 2)
    (if r.declared.toNat = 8 then some (r.field 3) else none)

theorem commit_acquire {i : SlotIx} {r : HostRecord} {s : State} (h : finds i .acquire r s) (hp : proceeds s.station.state) :
    s.commit .acquire r = acquireHandled i r s := by
  have hproceeds : disposition (requestOf .acquire r).kind s.station.state = .proceeds := by
    rcases hp with hp | hp | hp | hp <;> rw [hp] <;> rfl
  exact commit_proceeds i .acquire r s h (by decide) hproceeds

/-- Check 1: a field out of range. -/
theorem acquireHandled_badField {r : HostRecord} (ha : acquireOf r = none) (i : SlotIx) (s : State) :
    acquireHandled i r s = (accepted i .acquire r s).finish i .badField .none := by
  rw [acquireOf] at ha
  simp only [acquireHandled, State.handleAcquire, ha]

section Checks
variable {r : HostRecord} {a : Acquire} (ha : acquireOf r = some a) (i : SlotIx) (s : State)
include ha

/-- The checks that follow the first, in their order. -/
theorem acquireHandled_of_some :
    let u := accepted i .acquire r s
    acquireHandled i r s =
      if a.badOrder then u.finish i .badOrder .none
      else if u.table.fault r.clientNo then u.finish i .clientFaulted .none
      else if u.duplicates i r.clientNo r.tag a then (u.mapTable (RequestTable.setFault r.clientNo true)).finish i .duplicate .none
      else reexamined ((started i r a s).examine i) := by
  rw [acquireOf] at ha
  simp only [acquireHandled, State.handleAcquire, ha]
  rfl

/-- Check 2: a follow-on resource not above the first. -/
theorem acquireHandled_badOrder (h : ∃ f, a.followOn = some f ∧ f ≤ a.first) :
    acquireHandled i r s = (accepted i .acquire r s).finish i .badOrder .none := by
  obtain ⟨f, hf, hle⟩ := h
  have hbad : a.badOrder = true := by simp [Acquire.badOrder, hf, hle]
  rw [acquireHandled_of_some ha, if_pos hbad]

variable (ho : ∀ f, a.followOn = some f → a.first < f)
include ho

/-- Check 3: the client's fault flag. -/
theorem acquireHandled_faulted (hf : s.table.fault r.clientNo = true) :
    acquireHandled i r s = (accepted i .acquire r s).finish i .clientFaulted .none := by
  rw [acquireHandled_of_some ha, badOrder_eq_false a ho]
  exact if_pos hf

/-- Check 4: a duplicate, the one failure that sets the fault flag. -/
theorem acquireHandled_duplicate (hf : s.table.fault r.clientNo = false) (hd : duplicateRequest i r.clientNo r.tag a s) :
    acquireHandled i r s =
      ((accepted i .acquire r s).mapTable (RequestTable.setFault r.clientNo true)).finish i .duplicate .none := by
  have hfault : ¬ (accepted i .acquire r s).table.fault r.clientNo = true := Bool.eq_false_iff.1 hf
  have hdup : (accepted i .acquire r s).duplicates i r.clientNo r.tag a = true :=
    (duplicates_iff ..).2 ((duplicateRequest_accepted i r a s).2 hd)
  rw [acquireHandled_of_some ha, badOrder_eq_false a ho, if_neg Bool.false_ne_true, if_neg hfault, if_pos hdup]

end Checks

/-- Settles O11: the checks of R84, each reached where those before it pass. -/
theorem acquireIsChecked : Obligations.AcquireIsChecked := by
  intro i r s hfinds hproc u
  have hexec : ∀ t, acquireHandled i r s = t → t.outbound = s.outbound → t.ring = s.ring → exec (.acquire r) s = .next t :=
    fun t ht ho hr =>
      exec_request_quiet (k := .acquire) hfinds.1 ((commit_acquire hfinds hproc).trans ht) ho (congrArg RingPort.forwarding hr)
  refine ⟨acquireOf_eq_none_iff r, fun ha => hexec _ (acquireHandled_badField ha i s) rfl rfl, fun a ha => ⟨fun hb => ?_, fun ho hf => ?_,
    fun ho hf hd => ?_⟩⟩
  · exact hexec _ (acquireHandled_badOrder ha i s hb) rfl rfl
  · exact hexec _ (acquireHandled_faulted ha i s ho hf) rfl rfl
  · exact hexec _ (acquireHandled_duplicate ha i s ho hf hd) rfl rfl

/-! ### QUERY and STATS (R103, R104) -/

theorem handleQuery_badField {b : Byte} (h : 64 ≤ b.toNat) (i : SlotIx) (u : State) : u.handleQuery i b = u.finish i .badField .none := by
  simp only [State.handleQuery, (requestResource_eq_none_iff b).2 h]

theorem handleQuery_snapshot {b : Byte} {k : Resource} (h : b.toNat = k.val) (i : SlotIx) (u : State) :
    u.handleQuery i b = u.finish i .ok (.snapshot (u.lease.snapshot k)) := by
  simp only [State.handleQuery, (requestResource_eq_some_iff b k).2 h]

/-- Settles O19: both kinds proceed in every station state. -/
theorem queryAndStatsAnswerAtOnce : Obligations.QueryAndStatsAnswerAtOnce := by
  refine ⟨fun i r s hfinds => ?query, fun i r s hfinds => ?stats⟩
  case query =>
    have hcommit : s.commit .query r = (accepted i .query r s).handleQuery i (r.field 0) :=
      commit_proceeds i .query r s hfinds (by decide) rfl
    refine ⟨fun h => ?_, fun k h => ?_⟩
    · exact exec_request_quiet (k := .query) hfinds.1 (hcommit.trans (handleQuery_badField h i _)) rfl rfl
    · exact exec_request_quiet (k := .query) hfinds.1 (hcommit.trans (handleQuery_snapshot h i _)) rfl rfl
  case stats =>
    have hcommit : s.commit .stats r = (accepted i .stats r s).handleStats i :=
      commit_proceeds i .stats r s hfinds (by decide) rfl
    exact exec_request_quiet (k := .stats) hfinds.1 hcommit rfl rfl

/-! ### CLEAR_FAULT (R83) -/

theorem fault_setFault (c d : Client) (b : Bool) (t : RequestTable) :
    (t.setFault c b).fault d = if d = c then b else t.fault d := by
  simp only [RequestTable.setFault, RequestTable.fault, Fin.getElem_fin, Vector.getElem_set, Fin.ext_iff, eq_comm]

theorem fault_finish (i : SlotIx) (st : Status) (c : Content) (d : Client) (t : RequestTable) :
    (t.finish i st c).fault d = t.fault d := by
  simp only [RequestTable.fault, RequestTable.finish_faults]

/-- Settles O20: the flag is written before the completion, which leaves the flags. -/
theorem clearFaultClearsOneFlag : Obligations.ClearFaultClearsOneFlag := by
  intro i r s hfinds hproc t
  have hproceeds : disposition (requestOf .clearFault r).kind s.station.state = .proceeds := by
    rcases hproc with (hp | hp | hp | hp) | hp <;> rw [hp] <;> rfl
  have hcommit : s.commit .clearFault r = t := commit_proceeds i .clearFault r s hfinds (by decide) hproceeds
  have hfault : ∀ c, t.table.fault c = if c = r.clientNo then false else s.table.fault c := fun c => by
    rw [← fault_setFault]
    exact fault_finish ..
  refine ⟨exec_request_quiet (k := .clearFault) hfinds.1 hcommit rfl rfl, ?_, fun c hc => ?_⟩
  · rw [hfault, if_pos rfl]
  · rw [hfault, if_neg hc]

/-! ### RESTART (R155, R156) -/

/-- A roll that was sent is remembered as retired (R132). -/
theorem retired_retire_of_sent {u : RollUnit} {o : OutstandingRoll} (h : u.outstanding = some o) (hs : o.sent = true) :
    u.retire.retired = some { sequence := o.sequence, stamp := o.stamp, age := 0 } := by
  simp only [RollUnit.retire, h, hs, if_true]

theorem retired_retire_of_unsent {u : RollUnit} (h : ∀ o, u.outstanding = some o → o.sent = false) :
    u.retire.retired = u.retired := by
  cases ho : u.outstanding with
  | none => simp only [RollUnit.retire, ho]
  | some o => simp only [RollUnit.retire, ho, h o ho, Bool.false_eq_true, if_false]

theorem outstanding_retire (u : RollUnit) : u.retire.outstanding = none := by
  cases ho : u.outstanding <;> simp only [RollUnit.retire, ho]

theorem sequence_retire (u : RollUnit) : u.retire.sequence = u.sequence := by
  cases ho : u.outstanding <;> simp only [RollUnit.retire, ho]

/-- With both queues empty the choice at the end of a change finds no frame. -/
theorem startIdle_of_noFrame {t : State} (h : t.noFrame = true) (b : State) : t.startIdle b = t := by
  by_cases hb : b.noFrame = true
  · simp only [State.noFrame, Bool.and_eq_true, List.isEmpty_iff] at h hb
    exact State.startIdle_quiet t b (h.1.trans hb.1.symm) (h.2.trans hb.2.symm)
  · exact State.startIdle_waiting t b (by simpa using hb)

theorem commit_restart {r : HostRecord} {s : State} (h : formOk .restart r = true) (hst : s.station.state ≠ .unconfigured) :
    s.commit .restart r = State.restart { s with host := { s.host with assembly := .empty } } := by
  simp [State.commit, h, hst]

/-- Settles O22: the notice finds an empty queue, and no frame is left to choose. -/
theorem restartDropsEverything : Obligations.RestartDropsEverything := by
  intro r s hr hform hst
  refine ⟨?restarted, fun o => retired_retire_of_sent, retired_retire_of_unsent, outstanding_retire _, sequence_retire _⟩
  case restarted =>
    rw [exec_restart r s hr, commit_restart hform hst]
    exact congrArg _ (startIdle_of_noFrame rfl s)

end Sys2Proof.RequestProofs

/-! ## The timers of the Roll Unit and the probe (O50, O49) -/

namespace Sys2Proof.RollProofs
open Sys2Proof.Machine Sys2Proof.Statement Sys2Proof.LeaseProofs

/-! ### The retired roll and the probe (R132, R181) -/

theorem retiredExpires_of_due {s : State} (h : s.retiredDue = true) :
    s.retiredExpires = { s with roll := { s.roll with retired := none } } := if_pos h

theorem retiredExpires_of_not_due {s : State} (h : ¬ s.retiredDue = true) : s.retiredExpires = s := if_neg h

theorem probeExpires_of_due {s : State} (h : s.probeDue = true) :
    s.probeExpires = { s with probe := { s.probe with time := 0xFFFF, done := true, phase := .idle } } := if_pos h

theorem probeExpires_of_not_due {s : State} (h : ¬ s.probeDue = true) : s.probeExpires = s := if_neg h

/-- Settles O50: each command by the condition that makes it due. -/
theorem retiredRollAndProbeTimeOut : Obligations.RetiredRollAndProbeTimeOut := by
  intro s c hr hc
  rw [exec_retiredRollExpiry s hr, exec_probeTimeout s hr]
  refine ⟨fun o ho hage => ?retired, fun hyoung => ?retiredEarly, fun hout htime => ?probe, fun hn => ?probeEarly⟩
  case retired => rw [retiredExpires_of_due ((retiredDue_iff s).2 ⟨c, o, hc, ho, hage⟩)]
  case retiredEarly =>
    have hn : ¬ s.retiredDue = true := fun hdue => by
      obtain ⟨d, o, hd, ho, hage⟩ := (retiredDue_iff s).1 hdue
      obtain rfl : c = d := Option.some.inj (hc.symm.trans hd)
      exact Nat.not_lt.2 hage (hyoung o ho)
    rw [retiredExpires_of_not_due hn]
  case probe => rw [probeExpires_of_due ((probeDue_iff s).2 ⟨hout, htime⟩)]
  case probeEarly =>
    have hn' : ¬ s.probeDue = true := fun hdue => by
      obtain ⟨hout, htime⟩ := (probeDue_iff s).1 hdue
      exact hn.elim (absurd hout) (Nat.not_lt.2 htime)
    rw [probeExpires_of_not_due hn']

/-! ### The roll timer and the outstanding roll (R114, R130, R131) -/

/-- The states that originate: ACTIVE, RESYNC, and JOINING with the link UP (R115). -/
theorem mayOriginate_iff (s : State) : s.mayOriginate = true ↔
    s.station.state = .active ∨ s.station.state = .resync ∨ (s.station.state = .joining ∧ s.ring.linkUp = true) := by
  cases h : s.station.state <;> simp [State.mayOriginate, h]

/-- The roll timer's condition at a configured station, its period counted in character times (R114, R209). -/
theorem rollTimerDue_of_config {s : State} {c : Configuration} (hc : s.station.config = some c) : s.rollTimerDue = true ↔
    ∃ e, s.roll.timer = some e ∧ (c.interval.toNat * 1000 + s.station.address.val * (c.units.toNat * 10)) * 10 ≤ e := by
  cases h : s.roll.timer <;> simp [State.rollTimerDue, h, reached_rollPeriod_iff, hc]

/-- The outstanding roll's condition at a configured station (R130, R131). -/
theorem aged_of_config {s : State} {c : Configuration} {o : OutstandingRoll} (hc : s.station.config = some c)
    (ho : s.roll.outstanding = some o) (p : RollPhase) :
    s.roll.aged p s.tRCT = true ↔ o.phase = p ∧ 3 * (c.units.toNat * 100) ≤ o.age := by
  rw [aged_iff, hc, ho]
  constructor
  · rintro ⟨_, _, ⟨⟩, ⟨⟩, hage, hp⟩; exact ⟨hp, hage⟩
  · rintro ⟨hp, hage⟩; exact ⟨c, o, rfl, rfl, hage, hp⟩

theorem rollAgesOut_of_young {p : RollPhase} {s : State} (h : ¬ s.roll.aged p s.tRCT = true) : s.rollAgesOut p = s := if_neg h

/-- An aged roll is retired, and a new one originated where the state allows it. -/
theorem rollAgesOut_of_aged {p : RollPhase} {s : State} (h : s.roll.aged p s.tRCT = true) : s.rollAgesOut p =
    if s.mayOriginate then State.originate { s with roll := s.roll.retire } else { s with roll := s.roll.retire } := if_pos h

/-- The three answers of a command that takes the expiry of the outstanding roll in a phase (R130, R131). -/
theorem exec_rollAgesOut {s : State} {c : Configuration} {o : OutstandingRoll} {i : Instr} {p : RollPhase}
    (hc : s.station.config = some c) (ho : s.roll.outstanding = some o) (hexec : exec i s = atOnce s (s.rollAgesOut p)) :
    let u : State := { s with roll := { s.roll with
      outstanding := none
      retired := if o.sent then some { sequence := o.sequence, stamp := o.stamp, age := 0 } else s.roll.retired } }
    let may := s.station.state = .active ∨ s.station.state = .resync ∨ (s.station.state = .joining ∧ s.ring.linkUp = true)
    let aged := 3 * (c.units.toNat * 100) ≤ o.age
    (o.phase = p → aged → may → exec i s = atOnce s u.originate) ∧
    (o.phase = p → aged → ¬ may → exec i s = .next u) ∧
    (¬ (o.phase = p ∧ aged) → exec i s = .next s) := by
  intro u may aged
  have hu : ({ s with roll := s.roll.retire } : State) = u := by rw [retire_some ho]
  have haged : s.roll.aged p s.tRCT = true ↔ o.phase = p ∧ aged := aged_of_config hc ho p
  rw [hexec]
  refine ⟨fun hp hage hm => ?originates, fun hp hage hm => ?ends, fun hn => ?early⟩
  case originates => rw [rollAgesOut_of_aged (haged.2 ⟨hp, hage⟩), if_pos ((mayOriginate_iff s).2 hm), hu]
  case ends =>
    rw [rollAgesOut_of_aged (haged.2 ⟨hp, hage⟩), if_neg (mt (mayOriginate_iff s).1 hm), hu, atOnce, State.startIdle_quiet u s rfl rfl]
  case early => rw [rollAgesOut_of_young (mt haged.1 hn), atOnce, State.startIdle_quiet s s rfl rfl]

/-- Settles O49: the timer by its condition, and both expiries by the rows they share. -/
theorem rollTimersOriginate : Obligations.RollTimersOriginate := by
  refine ⟨fun s c hr hc => ?timer, fun s o c hr hc ho => ?expiries⟩
  case timer =>
    intro period due
    have hdue : (s.rollTimerDue = true ∧ s.station.state = .active ∧ s.roll.outstanding = none) ↔ due :=
      and_congr_left fun _ => rollTimerDue_of_config hc
    rw [exec_rollTimerExpiry s hr]
    refine ⟨fun h => ?_, fun h => ?_⟩
    · rw [State.rollTimerExpires, if_pos (hdue.2 h)]
    · rw [State.rollTimerExpires, if_neg (mt hdue.1 h), State.startIdle_quiet s s rfl rfl]
  case expiries =>
    obtain ⟨lostNew, lost, lostEarly⟩ := exec_rollAgesOut hc ho (exec_rollLost s hr)
    obtain ⟨abandonedNew, abandoned, abandonedEarly⟩ := exec_rollAgesOut hc ho (exec_abandonedRollExpiry s hr)
    exact ⟨lostNew, lost, lostEarly, abandonedNew, abandoned, abandonedEarly⟩

end Sys2Proof.RollProofs

/-! ## Originations and the end of LEAVING (O46, O45) -/

namespace Sys2Proof.RollProofs
open Sys2Proof.Machine Sys2Proof.Statement Sys2Proof.LeaseProofs

/-! ### Originations (R112, R116) -/

theorem rosterWaits_eq_false_iff (s : State) : s.rosterWaits = false ↔ ∀ f ∈ s.outbound, f.frame.body.isRoster = false := by
  simp [State.rosterWaits]

theorem rosterWaits_iff (s : State) : s.rosterWaits = true ↔ ∃ f ∈ s.outbound, f.frame.body.isRoster = true := by
  simp [State.rosterWaits]

theorem originate_of_rosterWaits {s : State} (h : s.rosterWaits = true) :
    s.originate = { s with roll := { s.roll with held := true, timer := none } } := if_pos h

theorem originate_of_no_roster {s : State} (h : s.rosterWaits = false) : s.originate = s.makeRoll := if_neg (by simp [h])

/-- A made roll waits in the Outbound Queue. -/
theorem makeRoll_outbound_ne_nil (s : State) : s.makeRoll.outbound ≠ [] := by simp [State.makeRoll]

theorem makeHeld_of_rosterWaits {s : State} (h : s.rosterWaits = true) : s.makeHeld = s := by simp [State.makeHeld, h]

theorem makeHeld_of_none_held {s : State} (h : s.roll.held = false) : s.makeHeld = s := by simp [State.makeHeld, h]

theorem makeHeld_makes {s : State} (hw : s.rosterWaits = false) (hh : s.roll.held = true) (hm : s.mayOriginate = true) :
    s.makeHeld = s.makeRoll := by simp [State.makeHeld, hw, hh, hm]

theorem makeHeld_drops {s : State} (hw : s.rosterWaits = false) (hh : s.roll.held = true) (hm : s.mayOriginate = false) :
    s.makeHeld = { s with roll := { s.roll with held := false } } := by simp [State.makeHeld, State.mapRoll, hw, hh, hm]

/-- Settles O46: both commands by what becomes of a held origination. -/
theorem originationQueuesOrHoldsARoll : Obligations.OriginationQueuesOrHoldsARoll := by
  refine ⟨fun s => ⟨rfl, fun h => ?makes, fun h => ?holds⟩, fun w g b rest s => ⟨fun hsends hb hrest => ?sent, fun hr hw => ?waits,
    fun hr hw => ?command⟩⟩
  case makes => exact originate_of_no_roster ((rosterWaits_eq_false_iff s).2 h)
  case holds => exact originate_of_rosterWaits ((rosterWaits_iff s).2 h)
  case sent =>
    intro u noneHeld
    have hw : u.rosterWaits = false := (rosterWaits_eq_false_iff u).2 hrest
    have hexec : exec .rosterTransmitted s = .next u.makeHeld.testLeaving :=
      run_ownSent hsends 0x55 State.reportRoster (by rw [hb]; rfl)
    rw [hexec]
    refine ⟨fun hh => ?_, fun hh hm => ?_, fun hh hm => ?_⟩
    · rw [makeHeld_of_none_held (s := u) hh]
    · rw [makeHeld_makes (s := u) hw hh hm, testLeaving_of_outbound (makeRoll_outbound_ne_nil u)]
    · have hdropped : u.makeHeld = noneHeld := makeHeld_drops hw hh hm
      rw [hdropped]
  case waits =>
    rw [exec_heldOrigination s hr, makeHeld_of_rosterWaits hw, State.startIdle_quiet s s rfl rfl]
  case command =>
    rw [exec_heldOrigination s hr]
    refine ⟨fun hh => ?_, fun hh hm => ?_, fun hh hm => ?_⟩
    · rw [makeHeld_of_none_held hh, State.startIdle_quiet s s rfl rfl]
    · rw [makeHeld_makes hw hh hm]
    · rw [makeHeld_drops hw hh hm]
      exact congrArg Host.Outcome.next (State.startIdle_quiet _ s rfl rfl)

/-! ### The end of LEAVING (R152) -/

/-- The station at the end of LEAVING, before its notice: the LEAVE slot completed, BYPASS asserted, the roll retired. -/
def leftState (s : State) : State :=
  { s.assertBypass with
    station := { s.station with state := .halted }
    roll := { s.roll.retire with timer := none, held := false }
    table := match s.table.leaveSlot with
      | none => s.table
      | some i => (s.finish i .ok .none).table }

theorem endLeaving_eq (s : State) :
    s.endLeaving = (leftState s).raiseNotice (.state .leaveDone s.station.state .halted) := by
  cases h : s.table.leaveSlot <;> simp only [State.endLeaving, leftState, h] <;> rfl

/-- What a notice makes of the Request Table is read off the Request Table. -/
theorem raiseNotice_table_congr {s t : State} (n : Notice) (h : s.table = t.table) :
    (s.raiseNotice n).table = (t.raiseNotice n).table := by
  by_cases hroom : t.table.queue.length < 16
  · rw [raiseNotice_room n (h ▸ hroom), raiseNotice_room n hroom, h]
  · rw [raiseNotice_full n (h ▸ Nat.not_lt.1 hroom), raiseNotice_full n (Nat.not_lt.1 hroom)]; exact h

/-- Settles O45: the halted station sends nothing, so the change ends with its notice. -/
theorem endOfLeavingHalts : Obligations.EndOfLeavingHalts := by
  intro s hr
  rw [← leavingDone_iff, exec_endOfLeaving s hr]
  refine ⟨fun hdone => ?halts, fun hn => ?stays⟩
  case halts =>
    have hleaving : s.station.state = .leaving := ((leavingDone_iff s).1 hdone).1
    have hend : s.testLeaving = (leftState s).raiseNotice (.state .leaveDone .leaving .halted) := by
      rw [State.testLeaving, if_pos hdone, endLeaving_eq, hleaving]
    have hring : s.testLeaving.ring = s.assertBypass.ring := by rw [hend, State.raiseNotice_ring]; rfl
    have hstation : s.testLeaving.station = { s.station with state := .halted } := by rw [hend, State.raiseNotice_station]; rfl
    have hbusy : s.testLeaving.startIdle s = s.testLeaving :=
      State.startIdle_busy _ _ (by rw [hring]; exact fun h => nomatch h)
    rw [hbusy]
    refine ⟨_, rfl, hstation, ?bypass, congrArg RingPort.forwarding hring, congrArg RingPort.linkUp hring,
      congrArg RingPort.transmitter hring, ?outbound, ?roll, ?lease, ?claim, ?probe, fun i hi => ?table⟩
    case bypass => simp [State.bypassAsserted, hstation, StationState.onRing]
    case outbound => rw [hend, State.raiseNotice_outbound]; rfl
    case roll => rw [hend, State.raiseNotice_roll]; rfl
    case lease => rw [hend, State.raiseNotice_lease]; rfl
    case claim => rw [hend, State.raiseNotice_claim]; rfl
    case probe => rw [hend, State.raiseNotice_probe]; rfl
    case table =>
      rw [hend]
      exact raiseNotice_table_congr _ (by simp only [leftState, hi])
  case stays => rw [testLeaving_of_not_done (Bool.eq_false_iff.2 hn), State.startIdle_quiet s s rfl rfl]

end Sys2Proof.RollProofs

/-! ## Link changes (O47) -/

namespace Sys2Proof.RollProofs
open Sys2Proof.Machine Sys2Proof.Statement Sys2Proof.LeaseProofs

/-! ### The link goes UP (R146, R148) -/

@[simp] theorem originate_station (s : State) : s.originate.station = s.station := by
  unfold State.originate
  split <;> rfl

theorem originateIfNone_of_none {s : State} (h : s.roll.outstanding = none) : s.originateIfNone = s.originate := by
  simp only [State.originateIfNone, h]

theorem originateIfNone_of_outstanding {s : State} (h : s.roll.outstanding ≠ none) : s.originateIfNone = s := by
  obtain ⟨o, ho⟩ := Option.ne_none_iff_exists'.1 h
  simp only [State.originateIfNone, ho]

@[simp] theorem originateIfNone_station (s : State) : s.originateIfNone.station = s.station := by
  unfold State.originateIfNone
  split
  · exact originate_station s
  · rfl

theorem reportUp_off_ring {s : State} (h : s.station.state = .unconfigured ∨ s.station.state = .halted) : s.reportUp = s := by
  rcases h with h | h <;> simp [State.reportUp, StationState.onRing, h]

/-- The station's part of an UP in JOINING, where a roll is originated if there is none (R115, R148). -/
theorem stationLinkUp_joining {s : State} (h : s.station.state = .joining) :
    s.stationLinkUp = s.originateIfNone.raiseNotice (.state .linkRestored .joining .joining) := by
  simp only [State.stationLinkUp, State.raiseState, originateIfNone_station, h]

/-- The station's part of an UP in BROKEN, which goes to RESYNC first (R115, R146). -/
theorem stationLinkUp_broken {s : State} (h : s.station.state = .broken) : s.stationLinkUp =
    (State.originateIfNone { s with station := { s.station with state := .resync } }).raiseNotice
      (.state .linkRestored .broken .resync) := by
  simp only [State.stationLinkUp, State.raiseState, originateIfNone_station, State.enter, h]

theorem stationLinkUp_leaving {s : State} (h : s.station.state = .leaving) :
    s.stationLinkUp = s.raiseNotice (.state .linkRestored .leaving .leaving) := by simp only [State.stationLinkUp, h, State.raiseState]

theorem stationLinkUp_quiet {s : State} (h : s.station.state = .active ∨ s.station.state = .resync) : s.stationLinkUp = s := by
  rcases h with h | h <;> simp only [State.stationLinkUp, h]

/-- A change that ends with a notice and brings no frame is all that happens. -/
theorem atOnce_raiseNotice {s t : State} (n : Notice) (ho : t.outbound = s.outbound) (hf : t.ring.forwarding = s.ring.forwarding) :
    atOnce s (t.raiseNotice n) = .next (t.raiseNotice n) := by
  rw [atOnce, State.startIdle_quiet _ _ (by rw [State.raiseNotice_outbound, ho]) (by rw [State.raiseNotice_ring, hf])]

/-- An UP at a station on the ring: the receiver's part, then the station's. -/
theorem exec_linkUp_on_ring {s t : State} {st : StationState} (hr : s.inReset = false) (hdown : s.ring.linkUp = false)
    (hs : s.station.state = st) (hon : st.onRing = true) (ht : s.linkComesUp.stationLinkUp = t) : exec .linkUp s = atOnce s t := by
  rw [exec_linkUp s hr, State.reportUp, if_pos (by simp [hs, hon, hdown]), ht]

/-! ### The link goes DOWN (R144, R147, R148, R161) -/

/-- The receiver's part of a DOWN: a frame IN FRAME is discarded and counted (R161, R175). -/
def linkDownState (s : State) : State :=
  { s with ring := { s.ring with
      linkUp := false, receiver := .hunting, lossTimer := none, settleTimer := none
      formatCount := if s.ring.receiver = .hunting ∨ s.ring.formatCount = 0xFFFF then s.ring.formatCount
        else s.ring.formatCount + 1 } }

theorem linkGoesDown_eq (s : State) : s.linkGoesDown = linkDownState s := by
  cases h : s.ring.receiver with
  | hunting => simp [State.linkGoesDown, linkDownState, h]
  | inFrame bytes => simp only [State.linkGoesDown, linkDownState, h, State.countFormat, saturatingSucc, reduceCtorEq, false_or]

/-- A DOWN at a station on the ring: the receiver's part, then the station's. -/
theorem exec_linkDown_on_ring {s t : State} {st : StationState} (hr : s.inReset = false) (hup : s.ring.linkUp = true)
    (hs : s.station.state = st) (hon : st.onRing = true) (ht : (linkDownState s).stationLinkDown = t) :
    exec .linkDown s = atOnce s t := by
  rw [exec_linkDown s hr, State.reportDown, if_pos (by simp [hs, hon, hup]), linkGoesDown_eq, ht]

theorem stationLinkDown_active {s : State} (h : s.station.state = .active) : s.stationLinkDown =
    State.raiseNotice (.state .linkLost .active .broken)
      { s with station := { s.station with state := .broken }, roll := { s.roll with timer := none } } := by
  simp only [State.stationLinkDown, h]; rfl

theorem stationLinkDown_resync {s : State} (h : s.station.state = .resync) : s.stationLinkDown =
    State.raiseNotice (.state .linkLost .resync .broken) { s with station := { s.station with state := .broken } } := by
  simp only [State.stationLinkDown, h]; rfl

theorem stationLinkDown_stays {s : State} {st : StationState} (hs : s.station.state = st) (h : st = .joining ∨ st = .leaving) :
    s.stationLinkDown = s.raiseNotice (.state .linkLost st st) := by
  rcases h with rfl | rfl <;> simp only [State.stationLinkDown, hs, State.raiseState]

/-! ### The link timers (R160) -/

theorem valid_iff (c : LinkChar) : c.valid = true ↔ validChar c := by cases c <;> simp [LinkChar.valid, validChar]

theorem nextChar_eq (s : State) : s.nextChar = arriving s := by
  cases h : s.rxLine <;> simp [State.nextChar, arriving, h]

/-- Two Ring Ports agree on the link and its timers. -/
structure SameLink (r q : RingPort) : Prop where
  linkUp : r.linkUp = q.linkUp
  lossTimer : r.lossTimer = q.lossTimer
  settleTimer : r.settleTimer = q.settleTimer

theorem SameLink.trans {r q p : RingPort} (h : SameLink r q) (g : SameLink q p) : SameLink r p :=
  ⟨h.linkUp.trans g.linkUp, h.lossTimer.trans g.lossTimer, h.settleTimer.trans g.settleTimer⟩

/-- The link timers of a character time are read off the link and its timers. -/
theorem SameLink.timeLink {r q : RingPort} (h : SameLink r q) (c : LinkChar) : SameLink (r.timeLink c) (q.timeLink c) := by
  obtain ⟨hup, hloss, hsettle⟩ := h
  unfold RingPort.timeLink
  rw [hup, hloss, hsettle]
  split
  · exact ⟨rfl, rfl, rfl⟩
  · exact ⟨rfl, rfl, rfl⟩

/-- The receiver's character moves the link's timers on the ring alone (R160, R177). -/
theorem receiveChar_link (s : State) :
    SameLink s.receiveChar.ring (if s.station.state.onRing then s.ring.timeLink s.nextChar else s.ring) := by
  unfold State.receiveChar
  dsimp only
  split
  · split
    · obtain ⟨x, n, p, h⟩ := State.frameCharacter_changes s.nextChar
        { s with rxLine := s.rxLine.tail, ring := s.ring.timeLink s.nextChar }
      rw [h]; exact ⟨rfl, rfl, rfl⟩
    · exact ⟨rfl, rfl, rfl⟩
  · exact ⟨rfl, rfl, rfl⟩

/-- The state whose receiver takes the character of a character time shows the link, the line and the station as they were. -/
theorem characterTime_receives (s : State) : ∃ v : State, s.characterTime = v.receiveChar ∧ v.station.state = s.station.state ∧
    v.rxLine = s.rxLine ∧ SameLink v.ring s.ring := by
  obtain ⟨hring, -, hline, hstate⟩ := State.transmitter_ticked s
  obtain ⟨x, c, f, hsent⟩ := State.transmitChar_changes s.tickCharacter.countProcessing
  refine ⟨_, rfl, ?_, ?_, ?_⟩
  · rw [hsent]; exact hstate
  · rw [hsent]; exact hline
  · rw [hsent, hring]; exact ⟨rfl, rfl, rfl⟩

/-- The link and its timers after a character time (R160). -/
theorem characterTime_link (s : State) :
    SameLink s.characterTime.ring (if s.station.state.onRing then s.ring.timeLink (arriving s) else s.ring) := by
  obtain ⟨v, hv, hstate, hline, hsame⟩ := characterTime_receives s
  have hchar : v.nextChar = arriving s := by rw [nextChar_eq, arriving, arriving, hline, hsame.linkUp]
  rw [hv]
  refine (receiveChar_link v).trans ?_
  rw [hchar, hstate]
  split
  · exact hsame.timeLink _
  · exact hsame

theorem timeLink_up {r : RingPort} (h : r.linkUp = true) (c : LinkChar) :
    r.timeLink c = { r with lossTimer := if c.valid then some 0 else r.lossTimer.map (fun n => n + 1) } := if_pos h

theorem timeLink_down {r : RingPort} (h : r.linkUp = false) (c : LinkChar) :
    r.timeLink c = { r with settleTimer := if c.valid then some (r.settleTimer.getD 0 + 1) else none } := if_neg (by simp [h])

theorem timeLink_linkUp (r : RingPort) (c : LinkChar) : (r.timeLink c).linkUp = r.linkUp := by
  unfold RingPort.timeLink
  split <;> rfl

/-- Settles O47: each change by its two parts, and the timers by the character that arrives. -/
theorem linkChangesAreTaken : Obligations.LinkChangesAreTaken := by
  refine ⟨fun s hr hdown => ?up, fun s hr hup => ?down, fun s => ?timers⟩
  case up =>
    intro u v raised
    have hjoining : s.station.state = .joining → exec .linkUp s = atOnce s (raised .joining .joining u.originateIfNone) :=
      fun hs => exec_linkUp_on_ring hr hdown hs rfl (stationLinkUp_joining hs)
    have hbroken : s.station.state = .broken → exec .linkUp s = atOnce s (raised .broken .resync v.originateIfNone) :=
      fun hs => exec_linkUp_on_ring hr hdown hs rfl (stationLinkUp_broken hs)
    have hquiet : u.startIdle s = u := State.startIdle_quiet u s rfl rfl
    refine ⟨fun hs ho => ?_, fun hs ho => ?_, fun hs ho => ?_, fun hs ho => ?_, fun hs => ?_, fun hs => ?_, fun hs => ?_⟩
    · rw [hjoining hs, originateIfNone_of_none (s := u) ho]
    · rw [hjoining hs, originateIfNone_of_outstanding (s := u) ho]
      exact atOnce_raiseNotice _ rfl rfl
    · rw [hbroken hs, originateIfNone_of_none (s := v) ho]
    · rw [hbroken hs, originateIfNone_of_outstanding (s := v) ho]
      exact atOnce_raiseNotice _ rfl rfl
    · exact (exec_linkUp_on_ring hr hdown hs rfl (stationLinkUp_leaving hs)).trans (atOnce_raiseNotice _ rfl rfl)
    · have hon : s.station.state.onRing = true := by rcases hs with hs | hs <;> rw [hs] <;> rfl
      exact (exec_linkUp_on_ring hr hdown rfl hon (stationLinkUp_quiet hs)).trans (congrArg Host.Outcome.next hquiet)
    · rw [exec_linkUp s hr, reportUp_off_ring hs, State.startIdle_quiet s s rfl rfl]
  case down =>
    intro count u broken raised
    refine ⟨fun hs => ?_, fun hs => ?_, fun hs => ?_, fun hs => ?_⟩
    · exact (exec_linkDown_on_ring hr hup hs rfl (stationLinkDown_active hs)).trans (atOnce_raiseNotice _ rfl rfl)
    · exact (exec_linkDown_on_ring hr hup hs rfl (stationLinkDown_resync hs)).trans (atOnce_raiseNotice _ rfl rfl)
    · exact (exec_linkDown_on_ring hr hup hs rfl (stationLinkDown_stays hs (.inl rfl))).trans (atOnce_raiseNotice _ rfl rfl)
    · exact (exec_linkDown_on_ring hr hup hs rfl (stationLinkDown_stays hs (.inr rfl))).trans (atOnce_raiseNotice _ rfl rfl)
  case timers =>
    intro r c
    have hlink : SameLink r (if s.station.state.onRing then s.ring.timeLink c else s.ring) := characterTime_link s
    refine ⟨?link, fun hoff => ?offRing, fun hon hup => ?isUp, fun hon hdown => ?isDown⟩
    case link =>
      rw [hlink.linkUp]
      split
      · exact timeLink_linkUp ..
      · rfl
    case offRing =>
      rw [hoff] at hlink
      exact ⟨hlink.lossTimer, hlink.settleTimer⟩
    case isUp =>
      rw [if_pos hon, timeLink_up hup] at hlink
      obtain ⟨-, hloss, hsettle⟩ := hlink
      refine ⟨hsettle, fun hc => ?_, fun hc => ?_⟩
      · rw [hloss, if_pos ((valid_iff c).2 hc)]
      · rw [hloss, if_neg (mt (valid_iff c).1 hc)]
    case isDown =>
      rw [if_pos hon, timeLink_down hdown] at hlink
      obtain ⟨-, hloss, hsettle⟩ := hlink
      refine ⟨hloss, fun n hc hn => ?_, fun hc hn => ?_, fun hc => ?_⟩
      · rw [hsettle, if_pos ((valid_iff c).2 hc), hn]; rfl
      · rw [hsettle, if_pos ((valid_iff c).2 hc), hn]; rfl
      · rw [hsettle, if_neg (mt (valid_iff c).1 hc)]

end Sys2Proof.RollProofs

/-! ## A passing ROLL (O33) -/

namespace Sys2Proof.RollProofs
open Sys2Proof.Machine Sys2Proof.Statement Sys2Proof.LeaseProofs

/-! ### The bytes of a roll entry (R201) -/

theorem holdByte_eq (k : Resource) (m : Mode) :
    holdByte k m = BitVec.ofNat 8 (k.val + if m = .exclusive then 128 else 0) := by
  cases m <;> rfl

theorem toNat_addressByte (a : StationAddr) (fresh : Bool) : (addressByte a fresh).toNat = a.val + 128 * fresh.toNat := by
  have ha := a.isLt
  have hf := fresh.toNat_le
  simp only [addressByte, BitVec.toNat_ofNat]
  omega

theorem addressOf_addressByte (a : StationAddr) (fresh : Bool) : addressOf (addressByte a fresh) = a := by
  have ha := a.isLt
  apply Fin.ext
  simp only [addressOf, Fin.ofNat, toNat_addressByte]
  omega

theorem freshOf_addressByte (a : StationAddr) (fresh : Bool) : freshOf (addressByte a fresh) = fresh := by
  have ha := a.isLt
  rw [freshOf, toNat_addressByte]
  cases fresh with
  | true => exact decide_eq_true (by rw [Bool.toNat_true]; omega)
  | false => exact decide_eq_false (by rw [Bool.toNat_false]; omega)

/-! ### The roll that is abandoned (R120, R171) -/

/-- The relief counter is cleared with the last frame (R172). -/
theorem clearRelief_eq (s : State) :
    s.clearRelief = { s with ring := { s.ring with relief := if s.outbound = [] then 0 else s.ring.relief } } := by
  by_cases h : s.outbound = [] <;> simp [State.clearRelief, h]

/-- The transmitter once the QUEUED roll leaves the queue: a ROLL being sent is cut, and IDLE takes the place of what is left of it
before the gap (R171, log 29). -/
def cutTransmitter (s : State) : Transmitter :=
  match s.ring.transmitter, s.outbound with
  | .sendingOwn sent, f :: _ => if f.frame.body.isRoll then .gap (f.frame.length + 2 - sent + 4) else s.ring.transmitter
  | t, _ => t

theorem cutTransmitter_of_roll {s : State} {n : Nat} {g : OwnFrame} {rest : List OwnFrame} (ht : s.ring.transmitter = .sendingOwn n)
    (ho : s.outbound = g :: rest) (hg : g.frame.body.isRoll = true) : cutTransmitter s = .gap (g.frame.length + 2 - n + 4) := by
  simp only [cutTransmitter, ht, ho, hg, if_true]

/-- The transmitter goes on with anything else. -/
theorem cutTransmitter_of_other {s : State}
    (h : ∀ n g rest, s.ring.transmitter = .sendingOwn n → s.outbound = g :: rest → g.frame.body.isRoll = false) :
    cutTransmitter s = s.ring.transmitter := by
  cases ht : s.ring.transmitter with
  | sendingOwn n =>
    cases ho : s.outbound with
    | nil => simp only [cutTransmitter, ht, ho]
    | cons g rest => simp [cutTransmitter, ht, ho, h n g rest ht ho]
  | _ => simp only [cutTransmitter, ht]

theorem removeRoll_ring (s : State) : s.removeRoll.ring = { s.ring with
    transmitter := cutTransmitter s
    relief := if s.outbound.filter (fun f => !f.frame.body.isRoll) = [] then 0 else s.ring.relief } := by
  rw [State.removeRoll, clearRelief_eq]
  rfl

/-- The station with its outstanding roll ABANDONED, before the roll leaves the queue (R120). -/
def abandonedState (o : OutstandingRoll) (s : State) : State :=
  { s with roll := { s.roll with outstanding := some { o with phase := .abandoned, age := 0 } } }

theorem abandonRoll_queued {s : State} {o : OutstandingRoll} (ho : s.roll.outstanding = some o) (hp : o.phase = .queued) :
    s.abandonRoll = (abandonedState o s).removeRoll := by
  simp only [State.abandonRoll, ho, if_pos hp]; rfl

theorem abandonRoll_sent {s : State} {o : OutstandingRoll} (ho : s.roll.outstanding = some o) (hp : o.phase ≠ .queued) :
    s.abandonRoll = abandonedState o s := by
  simp only [State.abandonRoll, ho, if_neg hp]; rfl

theorem abandonRoll_roll {s : State} {o : OutstandingRoll} (ho : s.roll.outstanding = some o) :
    s.abandonRoll.roll = { s.roll with outstanding := some { o with phase := .abandoned, age := 0 } } := by
  by_cases hp : o.phase = .queued
  · rw [abandonRoll_queued ho hp, State.removeRoll_roll]; rfl
  · rw [abandonRoll_sent ho hp]; rfl

/-! ### The rows of R119 -/

/-- This station's roll is out: QUEUED or CIRCULATING (R119). -/
def rollWaits (s : State) : Prop := s.roll.inPhase .queued = true ∨ s.roll.inPhase .circulating = true

section Rows
variable {o : StationAddr} {b : RollBody} {s : State}

theorem takeRoll_named (h : ∃ e ∈ b.entries, addressOf e.addr = s.station.address) : s.takeRoll o b = (s.duplicateHalt, none) :=
  if_pos (by simpa using h)

variable (hn : ¬ ∃ e ∈ b.entries, addressOf e.addr = s.station.address)
include hn

theorem takeRoll_full (h : 16 ≤ b.entries.length) : s.takeRoll o b = (s.countHop, none) := by
  have hn' : ¬ b.entries.any (fun e => decide (addressOf e.addr = s.station.address)) = true := by simpa using hn
  rw [State.takeRoll, if_neg hn']
  exact if_pos h

variable (hroom : b.entries.length < 16)
include hroom

/-- The rows that follow the first two. -/
theorem takeRoll_with_room : s.takeRoll o b =
    if s.roll.inPhase .queued || s.roll.inPhase .circulating then
      if o < s.station.address then (s.abandonRoll, some (s.abandonRoll.appendEntry b)) else (s, none)
    else (s, some (s.appendEntry b)) := by
  have hn' : ¬ b.entries.any (fun e => decide (addressOf e.addr = s.station.address)) = true := by simpa using hn
  have hroom' : ¬ Config.rollEntries ≤ b.entries.length := Nat.not_le.2 hroom
  rw [State.takeRoll, if_neg hn', if_neg hroom']

theorem takeRoll_lower (hw : rollWaits s) (h : o < s.station.address) :
    s.takeRoll o b = (s.abandonRoll, some (s.abandonRoll.appendEntry b)) := by
  rw [takeRoll_with_room hn hroom, if_pos (Bool.or_eq_true_iff.2 hw), if_pos h]

theorem takeRoll_higher (hw : rollWaits s) (h : s.station.address < o) : s.takeRoll o b = (s, none) := by
  rw [takeRoll_with_room hn hroom, if_pos (Bool.or_eq_true_iff.2 hw), if_neg (Fin.lt_asymm h)]

theorem takeRoll_without_own (hw : ¬ rollWaits s) : s.takeRoll o b = (s, some (s.appendEntry b)) := by
  rw [takeRoll_with_room hn hroom, if_neg (mt Bool.or_eq_true_iff.1 hw)]

end Rows

/-! ### The receipt of a ROLL -/

theorem takeForeign_roll_removed {f : Frame} {b : RollBody} {s t : State} (hb : f.body = .roll b)
    (h : s.takeRoll f.origin b = (t, none)) : s.takeForeign f = t := by
  simp only [State.takeForeign, hb, h]

theorem takeForeign_roll_forwarded {f : Frame} {b b' : RollBody} {s t : State} (hb : f.body = .roll b)
    (h : s.takeRoll f.origin b = (t, some b')) : s.takeForeign f = t.forward f (.roll b') := by
  simp only [State.takeForeign, hb, h]

/-- Another station's frame goes to its owning blocks; the test of the end of LEAVING closes the receipt (R152, R163). -/
theorem exec_receipt_tested {f : Frame} {s t : State} (h : foreign f s) (ht : (s.arrive f.bytes).takeForeign f = t) :
    exec (receipt f) s = atOnce s t.testLeaving := by
  obtain ⟨hrec, hwf, horigin, hhop, -⟩ := h
  have hhop' : ¬ Config.hopLimit ≤ f.hop.toNat := Nat.not_le.2 hhop
  rw [exec_receipt (inReset_of_receives hrec), receive_of_receives hrec hwf, State.judgeFrame, arrive_station, if_neg horigin,
    if_neg hhop', ht]

theorem countHop_eq (s : State) : s.countHop = hopCounted s := by rw [State.countHop, saturatingSucc_eq]; rfl

/-- An arrival touches neither the transmitter nor the relief counter. -/
theorem arrive_sends (l : List Byte) (s : State) :
    (s.arrive l).ring.transmitter = s.ring.transmitter ∧ (s.arrive l).ring.relief = s.ring.relief := by
  unfold State.arrive
  split <;> exact ⟨rfl, rfl⟩

/-- Settles O33: the rows in their order, what the abandoned roll leaves, and the entry byte by byte. -/
theorem passingRollTakesTheOwnEntry : Obligations.PassingRollTakesTheOwnEntry := by
  refine ⟨fun f b s hf hb => ?rows, fun s => ?entry⟩
  case entry =>
    refine ⟨?holds, ?pendings, addressOf_addressByte .., ?fresh⟩
    case holds => simp only [State.ownEntry, holdByte_eq]
    case pendings => simp only [State.ownEntry, holdByte_eq]
    case fresh => simp only [State.ownEntry, freshOf_addressByte, decide_eq_true_eq]
  case rows =>
    intro a named waits appended
    have hquiet : a.leavingDone = false := by simp [a, quiet_of_foreign hf]
    have hstation : a.station = s.station := arrive_station ..
    have hroll : a.roll = s.roll := arrive_roll ..
    have hout : a.outbound = s.outbound := arrive_outbound ..
    have hstill : a.startIdle s = a := State.startIdle_quiet _ _ hout (arrive_forwarding ..)
    obtain ⟨htransmitter, hrelief⟩ : a.ring.transmitter = s.ring.transmitter ∧ a.ring.relief = s.ring.relief := arrive_sends ..
    have hnamed : (∃ e ∈ b.entries, addressOf e.addr = a.station.address) ↔ named := by rw [hstation]
    have hwaits : rollWaits a ↔ waits := by rw [rollWaits, hroll]
    refine ⟨fun hn => ?duplicate, fun hn hfull => ?full, fun hn hroom hw hlt => ⟨?lower, fun o ho => ⟨?roll, fun hp => ?sent,
      fun hp => ?queued⟩⟩, fun hn hroom hw hlt => ?higher, fun hn hroom hw => ?forwarded⟩
    case duplicate =>
      obtain ⟨hleaving, hsilent⟩ := duplicateHalt_quiet a
      have hbusy : a.duplicateHalt.startIdle s = a.duplicateHalt := State.startIdle_busy _ _ (by simp [hsilent])
      rw [exec_receipt_foreign hf (takeForeign_roll_removed hb (takeRoll_named (hnamed.2 hn))) hleaving, atOnce, hbusy]
    case full =>
      rw [exec_receipt_foreign hf (takeForeign_roll_removed hb (takeRoll_full (mt hnamed.1 hn) hfull)) hquiet, atOnce, countHop_eq]
      exact congrArg Host.Outcome.next (State.startIdle_quiet _ _ hout (arrive_forwarding ..))
    case lower =>
      exact exec_receipt_tested hf
        (takeForeign_roll_forwarded hb (takeRoll_lower (mt hnamed.1 hn) hroom (hwaits.2 hw) (hstation ▸ hlt)))
    case roll => rw [abandonRoll_roll (hroll ▸ ho), hroll]
    case sent =>
      rw [abandonRoll_sent (hroll ▸ ho) (by rw [hp]; decide)]
      exact ⟨hout, rfl⟩
    case queued =>
      intro left kept
      have hout' : (abandonedState o a).outbound = s.outbound := hout
      have hrelief' : (abandonedState o a).ring.relief = s.ring.relief := hrelief
      have hring : (abandonedState o a).removeRoll.ring = kept (cutTransmitter (abandonedState o a)) := by
        rw [removeRoll_ring, hout', hrelief']; rfl
      rw [abandonRoll_queued (hroll ▸ ho) hp]
      refine ⟨?_, fun n g rest ht hg hr => ?_, fun h => ?_⟩
      · rw [State.removeRoll_outbound, hout']
      · rw [hring, cutTransmitter_of_roll (s := abandonedState o a) (htransmitter.trans ht) (hout.trans hg) hr]
      · rw [hring, cutTransmitter_of_other (s := abandonedState o a) fun n g rest ht hg =>
          h n g rest (htransmitter.symm.trans ht) (hout.symm.trans hg)]
        exact congrArg kept htransmitter
    case higher =>
      rw [exec_receipt_foreign hf
        (takeForeign_roll_removed hb (takeRoll_higher (mt hnamed.1 hn) hroom (hwaits.2 hw) (hstation ▸ hlt))) hquiet, atOnce, hstill]
    case forwarded =>
      exact exec_receipt_foreign hf (takeForeign_roll_forwarded hb (takeRoll_without_own (mt hnamed.1 hn) hroom (mt hwaits.1 hw)))
        ((leavingDone_forward ..).trans hquiet)

end Sys2Proof.RollProofs

/-! ## The commands by their change (O4, O59, O60) -/

namespace Sys2Proof.StationProofs
open Sys2Proof.Machine Sys2Proof.Statement Sys2Proof.LeaseProofs Sys2Proof.RequestProofs Sys2Proof.RollProofs

/-- The change that a command makes while the part is not held in reset; the three power commands have none. -/
def effect : Instr → State → State
  | .powerFail | .resetAsserted _ | .resetReleased _ _ => id
  | .requestAssemblyByte b _ => State.requestByte b
  | .configure r => State.commit .configure r
  | .acquire r => State.commit .acquire r
  | .release r => State.commit .release r
  | .cancel r => State.commit .cancel r
  | .query r => State.commit .query r
  | .stats r => State.commit .stats r
  | .clearFault r => State.commit .clearFault r
  | .leave r => State.commit .leave r
  | .restart r => State.commit .restart r
  | .completionRead first _ => State.readCompletion first
  | .abandon b _ => State.statusWrite (b ||| 0x80)
  | .clearRefused b _ => State.statusWrite (b ||| 0x01)
  | .clearNoticeLost b _ => State.statusWrite (b ||| 0x02)
  | .clearProbeDone b _ => State.statusWrite (b ||| 0x04)
  | .clearProbeBusy b _ => State.statusWrite (b ||| 0x08)
  | .intmaskWrite b _ => State.intmaskWrite b
  | .probeTimeLoRead _ => State.readProbeLo
  | .probe _ _ => State.probeWrite
  | .ignoredWrite _ _ _ => id
  | .framingDiscard c => State.discardFraming c
  | .formatDiscard l => State.receiveBad l
  | .claimReceipt o p b => State.receive { origin := o, hop := p, body := .claim b }
  | .settleReceipt o p b => State.receive { origin := o, hop := p, body := .settle b }
  | .releaseReceipt o p b => State.receive { origin := o, hop := p, body := .release b }
  | .rollReceipt o p b => State.receive { origin := o, hop := p, body := .roll b }
  | .rosterReceipt o p b => State.receive { origin := o, hop := p, body := .roster b }
  | .probeForward o p q => State.receive { origin := o, hop := p, body := .probe q }
  | .ownClaimReturn p b => fun s => s.receive { origin := s.station.address, hop := p, body := .claim b }
  | .ownRollReturn p b => fun s => s.receive { origin := s.station.address, hop := p, body := .roll b }
  | .ownProbeReturn p q => fun s => s.receive { origin := s.station.address, hop := p, body := .probe q }
  | .ownFrameStripped p b => fun s => s.receive { origin := s.station.address, hop := p, body := b.toBody }
  | .transmitChoice => State.transmitChoice
  | .claimTransmitted => State.ownSent 0x51 State.reportClaim
  | .settleTransmitted => State.ownSent 0x52 State.reportSettle
  | .releaseTransmitted => State.ownSent 0x53 State.reportRelease
  | .rollTransmitted => State.ownSent 0x54 State.reportRoll
  | .rosterTransmitted => State.ownSent 0x55 State.reportRoster
  | .heldOrigination => State.makeHeld
  | .probeTransmitted => State.ownSent 0x56 State.reportProbe
  | .linkUp => State.reportUp
  | .linkDown => State.reportDown
  | .circuitTimeout q => State.circuitExpires q
  | .intentExpiry k x => State.intentExpires k x
  | .rollTimerExpiry => State.rollTimerExpires
  | .rollLost => State.rollAgesOut .circulating
  | .abandonedRollExpiry => State.rollAgesOut .abandoned
  | .retiredRollExpiry => State.retiredExpires
  | .probeTimeout => State.probeExpires
  | .endOfLeaving => State.testLeaving
  | .slotPosting => State.mapTable RequestTable.postNext
  | .frameStart => State.startFrame

/-- Every command but the power commands runs its change as a plain command, as a write cycle or as a read cycle; `isRead` names the read
cycles that are taken as such. -/
theorem exec_eq_effect {c : Instr} (h : isPower c = false) (s : State) :
    (isRead c = false ∧ (exec c s = s.run (effect c) ∨ ∃ y, exec c s = s.runWrite y (effect c))) ∨
      ∃ y : Strobe, isRead c = (y.wf && !y.both) ∧ exec c s = s.runRead y (effect c) := by
  cases c with
  | powerFail | resetAsserted _ | resetReleased _ _ => nomatch h
  | completionRead _ y | probeTimeLoRead y => exact .inr ⟨y, rfl, rfl⟩
  | requestAssemblyByte _ y | abandon _ y | clearRefused _ y | clearNoticeLost _ y | clearProbeDone _ y | clearProbeBusy _ y
  | intmaskWrite _ y | probe _ y | ignoredWrite _ _ y => exact .inl ⟨rfl, .inr ⟨y, rfl⟩⟩
  | _ => exact .inl ⟨rfl, .inl rfl⟩

/-- What a command but the power commands leaves behind: nothing new, the 0 of a read in reset, or its change, with or without the
transmitter's choice at its end. -/
theorem exec_outcome {c : Instr} (h : isPower c = false) {s t : State} (ht : exec c s = .next t) :
    t = s ∨ t = s.driveData 0 ∨ t = effect c s ∨ t = (effect c s).startIdle s := by
  have hrun : ∀ {u}, s.run (effect c) = .next u → u = s ∨ u = (effect c s).startIdle s := fun hu => by
    rw [← Host.Outcome.next.inj hu]; split <;> simp
  rcases exec_eq_effect h s with ⟨-, he | ⟨y, he⟩⟩ | ⟨y, -, he⟩
  all_goals rw [he] at ht
  · exact (hrun ht).imp_right (.inr ∘ .inr)
  · unfold State.runWrite at ht
    split at ht
    · exact (hrun ht).imp_right (.inr ∘ .inr)
    · exact .inl (Host.Outcome.next.inj ht).symm
  · rw [← Host.Outcome.next.inj ht]
    split
    · split <;> simp
    · exact .inl rfl

/-- In reset a command changes nothing, but for the 0 that a read drives (R184, R211). -/
theorem exec_inReset {c : Instr} (h : isPower c = false) {s : State} (hr : s.inReset = true) :
    exec c s = .next (if isRead c then s.driveData 0 else s) := by
  rcases exec_eq_effect h s with ⟨hread, he | ⟨y, he⟩⟩ | ⟨y, hread, he⟩
  · rw [he, hread, State.run_held s _ hr]; rfl
  · rw [he, hread, State.runWrite, State.run_held s _ hr, ite_self]; rfl
  · rw [he, hread, State.runRead, if_pos hr]

/-- What a power command leaves behind: nothing new, the reset held, the reset released, or new straps and one cause of reset the less. -/
theorem exec_power {c : Instr} (h : isPower c = true) {s t : State} (ht : exec c s = .next t) :
    t = s ∨ (∃ a b n, t = s.holdReset a b n) ∨ (∃ x, t = s.releaseReset x) ∨
      ∃ x a b n, t = { s.sampleStraps x with supplyLow := a, resetLow := b, porTimer := n } := by
  cases c with
  | powerFail => exact .inr (.inl ⟨_, _, _, (Host.Outcome.next.inj ht).symm⟩)
  | resetAsserted n =>
    rw [← Host.Outcome.next.inj ht]
    split
    · exact .inr (.inl ⟨_, _, _, rfl⟩)
    · exact .inl rfl
  | resetReleased cause straps =>
    cases cause with
    | powerOnEnds =>
      rw [← Host.Outcome.next.inj ht, State.powerOnEnds]
      split
      · split
        · exact .inr (.inr (.inr ⟨_, _, _, _, rfl⟩))
        · exact .inr (.inr (.inl ⟨_, rfl⟩))
      · exact .inl rfl
    | pinReleased =>
      rw [← Host.Outcome.next.inj ht, State.pinReleased]
      split
      · split
        · exact .inr (.inr (.inr ⟨_, _, _, _, rfl⟩))
        · exact .inr (.inr (.inl ⟨_, rfl⟩))
      · exact .inl rfl
  | _ => nomatch h

end Sys2Proof.StationProofs

/-! ## The end of LEAVING is taken at once (O59) -/

namespace Sys2Proof.StationProofs
open Sys2Proof.Machine Sys2Proof.Statement Sys2Proof.LeaseProofs Sys2Proof.RequestProofs Sys2Proof.RollProofs

/-! ### The three conditions of R152 -/

theorem leavingDone_raiseNotice (n : Notice) (s : State) : (s.raiseNotice n).leavingDone = s.leavingDone :=
  leavingDone_congr (by simp) (by simp) (by simp) (by simp)

theorem leavingDone_of_outbound_ne_nil {s : State} (h : s.outbound ≠ []) : s.leavingDone = false := by simp [State.leavingDone, h]

theorem leavingDone_of_state {s : State} (h : s.station.state ≠ .leaving) : s.leavingDone = false := by simp [State.leavingDone, h]

/-- The test that closes a change leaves no end of LEAVING waiting: where it finds one, the station is HALTED. -/
theorem leavingDone_testLeaving (s : State) : s.testLeaving.leavingDone = false := by
  unfold State.testLeaving
  split
  · rw [endLeaving_eq, leavingDone_raiseNotice]
    exact leavingDone_of_state (by simp [leftState])
  · exact Bool.eq_false_iff.2 ‹_›

theorem leavingDone_restart (s : State) : s.restart.leavingDone = false := by
  have hstate : s.restart.station.state = .joining := by simp [State.restart]
  exact leavingDone_of_state (by simp [hstate])

section
variable {s : State} (h : s.leavingDone = false)
include h

theorem leavingDone_originate : s.originate.leavingDone = false := by
  unfold State.originate
  split
  · exact h
  · exact leavingDone_of_outbound_ne_nil (makeRoll_outbound_ne_nil s)

theorem leavingDone_originateIfNone : s.originateIfNone.leavingDone = false := by
  unfold State.originateIfNone
  split
  · exact leavingDone_originate h
  · exact h

theorem leavingDone_rollAgesOut (p : RollPhase) : (s.rollAgesOut p).leavingDone = false := by
  unfold State.rollAgesOut
  split
  · unfold State.loseRoll
    dsimp only
    split
    · exact leavingDone_originate (s := s.mapRoll RollUnit.retire) h
    · exact h
  · exact h

theorem leavingDone_rollTimerExpires : s.rollTimerExpires.leavingDone = false := by
  unfold State.rollTimerExpires
  split
  · exact leavingDone_originate h
  · exact h

theorem leavingDone_makeHeld : s.makeHeld.leavingDone = false := by
  unfold State.makeHeld
  split
  · split
    · exact leavingDone_of_outbound_ne_nil (makeRoll_outbound_ne_nil s)
    · exact h
  · exact h

theorem leavingDone_probeWrite : s.probeWrite.leavingDone = false := by
  unfold State.probeWrite
  split
  · exact leavingDone_of_outbound_ne_nil (by simp)
  · exact h

/-! ### The requests -/

theorem leavingDone_handleAcquire (i : SlotIx) (c : Client) (tag g m w : Byte) (f : Option Byte) :
    (s.handleAcquire i c tag g m w f).leavingDone = false := by
  unfold State.handleAcquire
  split
  · exact h
  · split
    · exact h
    · split
      · exact h
      · split
        · exact h
        · exact ((Served.examine _ i).trans (.reexamined _)).leavingDone h

theorem leavingDone_handleRelease (i : SlotIx) (c : Client) (g : Byte) (note : List Byte) :
    (s.handleRelease i c g note).leavingDone = false := by
  unfold State.handleRelease
  split
  · exact h
  · split
    · exact h
    · split
      · split
        · exact h
        · exact ((Served.releaseHold ..).trans (.reexamine ..)).leavingDone h
      · exact ((Served.hold s _ (HoldEntry.dropClient c) (fun _ => rfl)).trans (.finish ..)).leavingDone h

/-- The cancel flag leaves the claims outstanding (R56). -/
theorem leavingDone_cancelOf (i : SlotIx) : ({ s with claim := s.claim.cancelOf i } : State).leavingDone = false := by
  refine (leavingDone_congr ?_ ?_ ?_ ?_).trans h
  case refine_3 => simp [ClaimEngine.cancelOf, ClaimEngine.modifyWhere]
  all_goals rfl

theorem leavingDone_handleCancel (i : SlotIx) (c : Client) (g : Byte) : (s.handleCancel i c g).leavingDone = false := by
  unfold State.handleCancel
  split
  · exact h
  · split
    · exact h
    · split
      · split
        · exact (((Served.failAcquire s _ _).trans (.finish ..)).trans (.reexamine ..)).leavingDone h
        · exact h
      · exact leavingDone_cancelOf h _
      all_goals exact h

theorem leavingDone_handleConfigure (i : SlotIx) (c : Configuration) : (s.handleConfigure i c).leavingDone = false := by
  unfold State.handleConfigure
  split
  · exact leavingDone_of_state (by simp)
  · exact h

theorem leavingDone_handleQuery (i : SlotIx) (g : Byte) : (s.handleQuery i g).leavingDone = false := by
  unfold State.handleQuery
  split <;> exact h

/-- No request leaves the end of LEAVING waiting: a LEAVE closes with the test, and no other empties what R152 asks for. -/
theorem leavingDone_handle (i : SlotIx) (c : Client) (tag : Byte) (r : Request) : (s.handle i c tag r).leavingDone = false := by
  cases r with
  | configure interval units retry => exact leavingDone_handleConfigure h i _
  | acquire g m w f => exact leavingDone_handleAcquire h i c tag g m w f
  | release g note => exact leavingDone_handleRelease h i c g note
  | cancel target => exact leavingDone_handleCancel h i c target
  | query g => exact leavingDone_handleQuery h i g
  | leave => exact leavingDone_testLeaving _
  | stats | clearFault | restart => exact h

theorem leavingDone_commit (k : RequestKind) (r : HostRecord) : (s.commit k r).leavingDone = false := by
  unfold State.commit
  dsimp only
  split
  · exact h
  · split
    · exact leavingDone_restart _
    · unfold State.offerRequest
      split
      · exact h
      · dsimp only
        split
        · exact leavingDone_handle (by exact h) ..
        · exact h
        · exact h

theorem leavingDone_commitBytes (stored : List Byte) (declared : Byte) : (s.commitBytes stored declared).leavingDone = false := by
  unfold State.commitBytes
  split
  · exact h
  · exact leavingDone_commit h ..

theorem leavingDone_requestByte (b : Byte) : (s.requestByte b).leavingDone = false := by
  unfold State.requestByte
  split
  · exact h
  · split
    · exact leavingDone_commitBytes h ..
    · exact h
  · dsimp only
    split
    · exact leavingDone_commitBytes h ..
    · exact h

theorem leavingDone_readCompletion (first : Bool) : (s.readCompletion first).leavingDone = false := by
  unfold State.readCompletion
  split
  · exact h
  · unfold State.advanceRead
    split <;> exact h

/-! ### The ring -/

theorem leavingDone_discardFraming (c : FramingCause) : (s.discardFraming c).leavingDone = false := by
  obtain ⟨x, n, hx⟩ := s.discardFraming_changes c
  rw [hx]; exact h

theorem leavingDone_startFrame : s.startFrame.leavingDone = false := by
  unfold State.startFrame
  split <;> exact h

theorem leavingDone_receiveBad (l : List Byte) : (s.receiveBad l).leavingDone = false := by
  unfold State.receiveBad
  split
  · exact (leavingDone_arrive l s).trans h
  · exact h

/-- A receipt closes with the test of the end of LEAVING (R152, R163). -/
theorem leavingDone_receive (f : Frame) : (s.receive f).leavingDone = false := by
  unfold State.receive
  split
  · dsimp only
    split
    · exact leavingDone_testLeaving _
    · exact (leavingDone_arrive f.bytes s).trans h
  · exact h

theorem leavingDone_transmitChoice : s.transmitChoice.leavingDone = false := by
  unfold State.transmitChoice
  split <;> exact h

/-- The report of a sent own frame closes with the test of the end of LEAVING (R152, R170). -/
theorem leavingDone_ownSent (kind : Byte) (report : OwnFrame → State → State) : (s.ownSent kind report).leavingDone = false := by
  unfold State.ownSent
  split
  · split
    · exact leavingDone_testLeaving _
    · exact h
  · exact h

/-! ### Link status and timers -/

theorem leavingDone_stationLinkUp : s.stationLinkUp.leavingDone = false := by
  cases hs : s.station.state with
  | joining =>
    rw [stationLinkUp_joining hs, leavingDone_raiseNotice]
    exact leavingDone_originateIfNone h
  | broken =>
    rw [stationLinkUp_broken hs, leavingDone_raiseNotice]
    exact leavingDone_originateIfNone (leavingDone_of_state (by simp))
  | leaving => rw [stationLinkUp_leaving hs, leavingDone_raiseNotice, h]
  | active | resync | unconfigured | halted => simp only [State.stationLinkUp, hs, h]

theorem leavingDone_stationLinkDown : s.stationLinkDown.leavingDone = false := by
  cases hs : s.station.state with
  | active =>
    rw [stationLinkDown_active hs, leavingDone_raiseNotice]
    exact leavingDone_of_state (by simp)
  | resync =>
    rw [stationLinkDown_resync hs, leavingDone_raiseNotice]
    exact leavingDone_of_state (by simp)
  | joining => rw [stationLinkDown_stays hs (.inl rfl), leavingDone_raiseNotice, h]
  | leaving => rw [stationLinkDown_stays hs (.inr rfl), leavingDone_raiseNotice, h]
  | broken | unconfigured | halted => simp only [State.stationLinkDown, hs, h]

theorem leavingDone_reportUp : s.reportUp.leavingDone = false := by
  unfold State.reportUp
  split
  · exact leavingDone_stationLinkUp (s := s.linkComesUp) h
  · exact h

theorem leavingDone_reportDown : s.reportDown.leavingDone = false := by
  unfold State.reportDown
  split
  · rw [linkGoesDown_eq]
    exact leavingDone_stationLinkDown (s := linkDownState s) h
  · exact h

theorem leavingDone_circuitExpires (q : Byte) : (s.circuitExpires q).leavingDone = false := by
  unfold State.circuitExpires
  split
  · exact h
  · exact leavingDone_testLeaving _

theorem leavingDone_intentExpires (k : Resource) (x : StationAddr) : (s.intentExpires k x).leavingDone = false := by
  unfold State.intentExpires
  split
  · exact leavingDone_reexamine _ ((leavingDone_modify k _ s).trans h)
  · exact h

theorem leavingDone_retiredExpires : s.retiredExpires.leavingDone = false := by
  unfold State.retiredExpires
  split <;> exact h

theorem leavingDone_probeExpires : s.probeExpires.leavingDone = false := by
  unfold State.probeExpires
  split <;> exact h

/-! ### Commands and steps -/

theorem leavingDone_effect (c : Instr) : (effect c s).leavingDone = false := by
  cases c with
  | requestAssemblyByte b y => exact leavingDone_requestByte h b
  | configure r | acquire r | release r | cancel r | query r | stats r | clearFault r | leave r | restart r =>
    exact leavingDone_commit h _ r
  | completionRead first y => exact leavingDone_readCompletion h first
  | probe b y => exact leavingDone_probeWrite h
  | framingDiscard c => exact leavingDone_discardFraming h c
  | formatDiscard l => exact leavingDone_receiveBad h l
  | claimReceipt | settleReceipt | releaseReceipt | rollReceipt | rosterReceipt | probeForward | ownClaimReturn | ownRollReturn
  | ownProbeReturn | ownFrameStripped => exact leavingDone_receive h _
  | transmitChoice => exact leavingDone_transmitChoice h
  | claimTransmitted | settleTransmitted | releaseTransmitted | rollTransmitted | rosterTransmitted | probeTransmitted =>
    exact leavingDone_ownSent h _ _
  | heldOrigination => exact leavingDone_makeHeld h
  | linkUp => exact leavingDone_reportUp h
  | linkDown => exact leavingDone_reportDown h
  | circuitTimeout q => exact leavingDone_circuitExpires h q
  | intentExpiry k x => exact leavingDone_intentExpires h k x
  | rollTimerExpiry => exact leavingDone_rollTimerExpires h
  | rollLost | abandonedRollExpiry => exact leavingDone_rollAgesOut h _
  | retiredRollExpiry => exact leavingDone_retiredExpires h
  | probeTimeout => exact leavingDone_probeExpires h
  | endOfLeaving => exact leavingDone_testLeaving s
  | frameStart => exact leavingDone_startFrame h
  | _ => exact h

theorem leavingDone_exec {c : Instr} {t : State} (ht : exec c s = .next t) : t.leavingDone = false := by
  cases hp : isPower c with
  | true =>
    rcases exec_power hp ht with rfl | ⟨_, _, _, rfl⟩ | ⟨_, rfl⟩ | ⟨_, _, _, _, rfl⟩
    · exact h
    · rfl
    · rfl
    · exact h
  | false =>
    rcases exec_outcome hp ht with rfl | rfl | rfl | rfl
    · exact h
    · exact h
    · exact leavingDone_effect h c
    · exact leavingDone_effect h c

/-- The passing of time moves no frame of this station, no claim and no hold. -/
theorem leavingDone_characterTime : s.characterTime.leavingDone = false := by
  have hmicro : s.tickMicro.station.state = s.station.state ∧ s.tickMicro.outbound = s.outbound := by
    unfold State.tickMicro
    split <;> exact ⟨rfl, rfl⟩
  obtain ⟨r, hr⟩ := State.characterTime_changes s
  rw [hr]
  refine (leavingDone_congr ?_ ?_ ?_ ?_).trans h
  · exact hmicro.1
  · exact hmicro.2
  · exact List.map_eq_nil_iff
  · rfl

theorem leavingDone_idleStep : s.idleStep.leavingDone = false := by
  unfold State.idleStep
  split
  · unfold State.resetStep
    split
    · split <;> exact h
    · exact h
  · split
    · exact h
    · exact leavingDone_characterTime h

end

/-- Settles O59: the changes that can bring the end of LEAVING close with its test, and no other brings it. -/
theorem stepKeepsTheEndOfLeavingTaken : Obligations.StepKeepsTheEndOfLeavingTaken := by
  intro s t h ht
  unfold step at ht
  split at ht
  · rw [← Host.Outcome.next.inj ht]; exact leavingDone_idleStep h
  · exact leavingDone_exec (by exact h) ht

end Sys2Proof.StationProofs

/-! ## Power and reset (O4) -/

namespace Sys2Proof.StationProofs
open Sys2Proof.Machine Sys2Proof.Statement Sys2Proof.LeaseProofs Sys2Proof.RequestProofs Sys2Proof.RollProofs

/-- In reset the outputs and the port stand at rest (R184, R211). -/
theorem outputs_inReset {s : State} (h : s.inReset = true) :
    s.bypassAsserted = true ∧ s.intAsserted = false ∧ ∀ a, portRead a s = 0 :=
  ⟨by simp [State.bypassAsserted, h], by simp [State.intAsserted, h], fun _ => if_pos h⟩

/-- Power-on reset has ended: tPOR has been counted (R211). -/
theorem powerOn_ended_iff (s : State) : (s.supplyLow && decide (Config.porCharacters ≤ s.porTimer)) = true ↔
    s.supplyLow = true ∧ 100000 ≤ s.porTimer := by
  rw [Bool.and_eq_true, decide_eq_true_eq]; rfl

section Releases
variable {s : State} {straps : StationAddr}

theorem powerOnEnds_last (h : s.supplyLow = true ∧ 100000 ≤ s.porTimer) (hlow : s.resetLow = false) :
    s.powerOnEnds straps = s.releaseReset straps := by
  rw [State.powerOnEnds, if_pos ((powerOn_ended_iff s).2 h), hlow]; rfl

theorem powerOnEnds_of_pin (h : s.supplyLow = true ∧ 100000 ≤ s.porTimer) (hlow : s.resetLow = true) :
    s.powerOnEnds straps = { s.sampleStraps straps with supplyLow := false, porTimer := 0 } := by
  rw [State.powerOnEnds, if_pos ((powerOn_ended_iff s).2 h), hlow]; rfl

theorem powerOnEnds_early (h : ¬ (s.supplyLow = true ∧ 100000 ≤ s.porTimer)) : s.powerOnEnds straps = s :=
  if_neg (mt (powerOn_ended_iff s).1 h)

theorem pinReleased_last (hlow : s.resetLow = true) (hs : s.supplyLow = false) : s.pinReleased straps = s.releaseReset straps := by
  rw [State.pinReleased, if_pos hlow, hs]; rfl

theorem pinReleased_of_supply (hlow : s.resetLow = true) (hs : s.supplyLow = true) :
    s.pinReleased straps = { s.sampleStraps straps with resetLow := false } := by
  rw [State.pinReleased, if_pos hlow, if_pos hs]

theorem pinReleased_filtered (hlow : s.resetLow = false) : s.pinReleased straps = s := if_neg (by simp [hlow])

/-- At the end of tPOR an idle step queues the release, with the straps last sampled (R209, log 30). -/
theorem step_powerOn_ended (hp : s.pending = []) (h : s.supplyLow = true ∧ 100000 ≤ s.porTimer) :
    step s = .next { s with pending := [.resetReleased .powerOnEnds s.straps] } := by
  obtain ⟨hs, htimer⟩ := h
  have htimer' : ¬ s.porTimer < Config.porCharacters := Nat.not_lt.2 htimer
  rw [step_idle hp, idleStep_inReset (by simp [State.inReset, hs]), State.resetStep, if_pos hs, if_neg htimer', hp]
  rfl

end Releases

/-- Settles O4: what holds reset, what a command does in it, and what ends it. -/
theorem resetHoldsAndReleasesThePart : Obligations.ResetHoldsAndReleasesThePart := by
  refine ⟨fun s lowNs => ⟨rfl, fun hlong => ?taken, fun hshort => ?filtered, fun t ht => outputs_inReset ht⟩,
    fun c s hr hc => ⟨fun hread => ?quiet, fun hread => ?read⟩, fun s straps => ?releases⟩
  case taken => exact congrArg Host.Outcome.next (if_pos hlong)
  case filtered => exact congrArg Host.Outcome.next (if_neg (Nat.not_le.2 hshort))
  case quiet => rw [exec_inReset hc hr, hread]; rfl
  case read => rw [exec_inReset hc hr, hread]; rfl
  case releases =>
    intro released sampled ended
    refine ⟨fun he hlow => congrArg _ (powerOnEnds_last he hlow), fun he hlow => congrArg _ (powerOnEnds_of_pin he hlow),
      fun he => congrArg _ (powerOnEnds_early he), fun hlow hs => congrArg _ (pinReleased_last hlow hs),
      fun hlow hs => congrArg _ (pinReleased_of_supply hlow hs), fun t hlow hs hp ht htimer => ?both,
      fun hlow => congrArg _ (pinReleased_filtered hlow), rfl, rfl, rfl, rfl, rfl⟩
    obtain rfl : s.pinReleased straps = t := Host.Outcome.next.inj ht
    rw [pinReleased_of_supply hlow hs]
    refine ⟨step_powerOn_ended hp ⟨hs, htimer⟩, ?_⟩
    have hempty : released = { released with pending := [] } := by simp only [released, hp]
    rw [hempty]
    exact congrArg _ (powerOnEnds_last (s := { sampled with resetLow := false, pending := [] }) ⟨hs, htimer⟩ rfl)

end Sys2Proof.StationProofs

/-! ## CONFIGURE (O10) -/

namespace Sys2Proof.StationProofs
open Sys2Proof.Machine Sys2Proof.Statement Sys2Proof.LeaseProofs Sys2Proof.RequestProofs Sys2Proof.RollProofs

theorem inRange_iff (c : Configuration) : c.inRange = true ↔ 1 ≤ c.interval.toNat ∧ 1 ≤ c.units.toNat ∧ c.units.toNat ≤ 1000 ∧
    1 ≤ c.retry.toNat ∧ c.retry.toNat ≤ 7 := by simp [Configuration.inRange, and_assoc]

/-- The station that has stored its configuration and released BYPASS, in JOINING, before its notice (R141). -/
def joinedRing (c : Configuration) (s : State) : State :=
  { s with
    station := { s.station with state := .joining, config := some c }
    ring := { s.ring with transmitter := .idle } }

theorem handleConfigure_inRange {c : Configuration} (h : c.inRange = true) (i : SlotIx) (s : State) : s.handleConfigure i c =
    (joinedRing c (s.finish i .ok .none)).raiseNotice (.state .configured s.station.state .joining) := if_pos h

theorem handleConfigure_outOfRange {c : Configuration} (h : ¬ c.inRange = true) (i : SlotIx) (s : State) :
    s.handleConfigure i c = s.finish i .badField .none := if_neg h

/-- A notice is lost or enters by the length of the queue alone. -/
theorem raiseNotice_host_congr {s t : State} (n : Notice) (h : s.table = t.table) (g : s.host = t.host) :
    (s.raiseNotice n).host = (t.raiseNotice n).host := by
  by_cases hroom : t.table.queue.length < 16
  · rw [raiseNotice_room n (h ▸ hroom), raiseNotice_room n hroom]; exact g
  · rw [raiseNotice_full n (h ▸ Nat.not_lt.1 hroom), raiseNotice_full n (Nat.not_lt.1 hroom), g]

/-- Settles O10: the CONFIGURE in its slot, by the range of its fields. -/
theorem configureJoinsTheRing : Obligations.ConfigureJoinsTheRing := by
  intro i r s interval retry units hfinds hstate hreq
  let c : Configuration := { interval := interval, units := units, retry := retry }
  have hcommit : s.commit .configure r = (accepted i .configure r s).handleConfigure i c := by
    rw [commit_proceeds i .configure r s hfinds (by decide) (by rw [requestOf_kind, hstate]; rfl), hreq]; rfl
  refine ⟨fun hin => ?joins, fun hout => ?refused⟩
  case joins =>
    let u := joinedRing c ((accepted i .configure r s).finish i .ok .none)
    let n : Notice := .state .configured .unconfigured .joining
    have hhandled : s.commit .configure r = u.raiseNotice n := by
      rw [hcommit, handleConfigure_inRange ((inRange_iff c).2 hin), show (accepted i .configure r s).station.state = _ from hstate]
    have hexec : exec (.configure r) s = .next (u.raiseNotice n) := by
      rw [exec_configure r s hfinds.1, hhandled]; exact atOnce_raiseNotice n rfl rfl
    have hstation : (u.raiseNotice n).station = u.station := State.raiseNotice_station ..
    refine ⟨_, hexec, hstation, State.raiseNotice_ring .., ?bypass, raiseNotice_table_congr n rfl, raiseNotice_host_congr n rfl rfl,
      State.raiseNotice_lease .., State.raiseNotice_claim .., State.raiseNotice_roll .., State.raiseNotice_outbound ..,
      State.raiseNotice_probe ..⟩
    case bypass =>
      have hreset : (u.raiseNotice n).inReset = false := by
        rw [State.inReset, State.raiseNotice_supplyLow, State.raiseNotice_resetLow]; exact hfinds.1
      rw [State.bypassAsserted, hreset, hstation]; rfl
  case refused =>
    exact exec_request_quiet (k := .configure) hfinds.1
      (hcommit.trans (handleConfigure_outOfRange (mt (inRange_iff c).1 hout) i _)) rfl rfl

end Sys2Proof.StationProofs

/-! ## What commands leave of the station (O60) -/

namespace Sys2Proof.StationProofs
open Sys2Proof.Machine Sys2Proof.Statement Sys2Proof.LeaseProofs Sys2Proof.RequestProofs Sys2Proof.RollProofs

/-- What lies outside the blocks' working state: supply, pins, straps, receive line and queue of commands, with the station's address,
configuration values and microsecond counter (R137 to R139, log 1, log 5). -/
structure Outer where
  supplyLow : Bool
  resetLow  : Bool
  porTimer  : Nat
  straps    : StationAddr
  rxLine    : List LinkChar
  pending   : List Instr
  address   : StationAddr
  config    : Option Configuration
  micros    : Half

def outer (s : State) : Outer :=
  { supplyLow := s.supplyLow, resetLow := s.resetLow, porTimer := s.porTimer, straps := s.straps, rxLine := s.rxLine,
    pending := s.pending, address := s.station.address, config := s.station.config, micros := s.station.micros }

/-! ### The shared operations -/

/-- The service of waiting slots leaves it. -/
theorem outer_served {s t : State} (h : Served s t) : outer t = outer s := by
  simp only [outer, h.supplyLow, h.resetLow, h.porTimer, h.straps, h.rxLine, h.pending, h.station]

@[simp] theorem outer_mapTable (f : RequestTable → RequestTable) (s : State) : outer (s.mapTable f) = outer s := rfl
@[simp] theorem outer_mapLease (f : LeaseTable → LeaseTable) (s : State) : outer (s.mapLease f) = outer s := rfl
@[simp] theorem outer_mapRoll (f : RollUnit → RollUnit) (s : State) : outer (s.mapRoll f) = outer s := rfl
@[simp] theorem outer_enter (st : StationState) (s : State) : outer (s.enter st) = outer s := rfl
@[simp] theorem outer_finish (i : SlotIx) (st : Status) (c : Content) (s : State) : outer (s.finish i st c) = outer s := rfl
@[simp] theorem outer_enqueue (b : Body) (o : Option SlotIx) (s : State) : outer (s.enqueue b o) = outer s := rfl
@[simp] theorem outer_countFormat (s : State) : outer s.countFormat = outer s := rfl
@[simp] theorem outer_countHop (s : State) : outer s.countHop = outer s := rfl
@[simp] theorem outer_dequeueSent (s : State) : outer s.dequeueSent = outer s := by simp [outer]
@[simp] theorem outer_removeRoll (s : State) : outer s.removeRoll = outer s := by simp [outer]
@[simp] theorem outer_raiseNotice (n : Notice) (s : State) : outer (s.raiseNotice n) = outer s := by simp [outer]
@[simp] theorem outer_raiseState (c : NoticeCause) (st : StationState) (s : State) : outer (s.raiseState c st) = outer s := by
  simp [outer]
@[simp] theorem outer_raiseRoster (q : Byte) (old new : List RosterEntry) (s : State) :
    outer (s.raiseRoster q old new) = outer s := by simp [outer]
@[simp] theorem outer_forward (f : Frame) (b : Body) (s : State) : outer (s.forward f b) = outer s := by simp [outer]

@[simp] theorem outer_reexamine (w : Work) (s : State) : outer (s.reexamine w) = outer s := outer_served (.reexamine w s)
@[simp] theorem outer_reexamined (p : State × Work) : outer (reexamined p) = outer p.1 := outer_served (.reexamined p)
@[simp] theorem outer_examine (i : SlotIx) (s : State) : outer (s.examine i).1 = outer s := outer_served (.examine s i)
@[simp] theorem outer_failAcquire (i : SlotIx) (st : Status) (s : State) : outer (s.failAcquire i st).1 = outer s :=
  outer_served (.failAcquire s i st)
@[simp] theorem outer_succeedAcquire (i : SlotIx) (s : State) : outer (s.succeedAcquire i).1 = outer s :=
  outer_served (.succeedAcquire s i)
@[simp] theorem outer_releaseHold (e : HoldEntry) (n : List Byte) (i : SlotIx) (c : Option Completion) (s : State) :
    outer (s.releaseHold e n i c) = outer s := outer_served (.releaseHold s e n i c)

@[simp] theorem outer_arrive (l : List Byte) (s : State) : outer (s.arrive l) = outer s := by
  obtain ⟨x, p, h⟩ := arrive_changes l s
  rw [h]; rfl

/-- A fold over slots leaves it where each of its changes does. -/
theorem outer_foldl {g : State → SlotIx → State} (hg : ∀ s i, outer (g s i) = outer s) (is : List SlotIx) (s : State) :
    outer (is.foldl g s) = outer s :=
  foldSlots (P := fun t => outer t = outer s) g (fun t i ht => (hg t i).trans ht) is s rfl

/-! ### Rolls -/

@[simp] theorem outer_startRollTimer (s : State) : outer s.startRollTimer = outer s := by
  unfold State.startRollTimer
  split <;> rfl


@[simp] theorem outer_originate (s : State) : outer s.originate = outer s := by
  unfold State.originate
  split <;> rfl

@[simp] theorem outer_originateIfNone (s : State) : outer s.originateIfNone = outer s := by
  unfold State.originateIfNone
  split <;> simp

@[simp] theorem outer_makeHeld (s : State) : outer s.makeHeld = outer s := by
  unfold State.makeHeld
  split
  · split <;> rfl
  · rfl

/-- The timer of an ACTIVE station or a new roll (R114, R115). -/
theorem outer_rollAfresh (s : State) : outer (if s.station.state = .active then s.startRollTimer
    else if s.mayOriginate then s.originate else s) = outer s := by
  split
  · simp
  · split <;> simp

@[simp] theorem outer_rollAgesOut (p : RollPhase) (s : State) : outer (s.rollAgesOut p) = outer s := by
  unfold State.rollAgesOut
  split
  · unfold State.loseRoll
    dsimp only
    split <;> simp
  · rfl

@[simp] theorem outer_abandonRoll (s : State) : outer s.abandonRoll = outer s := by
  unfold State.abandonRoll
  split
  · rfl
  · dsimp only
    split <;> simp

@[simp] theorem outer_rollDone (s : State) : outer s.rollDone = outer s := by
  unfold State.rollDone
  split <;> simp

@[simp] theorem outer_completeRoll (b : RollBody) (s : State) : outer (s.completeRoll b) = outer s := by simp [State.completeRoll]

@[simp] theorem outer_rosterClears (s : State) : outer s.rosterClears = outer s := by
  unfold State.rosterClears
  split
  · exact outer_rollAfresh _
  · rfl

@[simp] theorem outer_takeRoster (b : RosterBody) (s : State) : outer (s.takeRoster b) = outer s := by
  unfold State.takeRoster
  split
  · unfold State.acceptRoster State.restartTimer
    dsimp only
    split <;> simp
  · simp

/-! ### The station's changes -/

@[simp] theorem outer_restart (s : State) : outer s.restart = outer s := by simp only [State.restart, outer_raiseState]; rfl

theorem outer_abortSlot (s : State) (i : SlotIx) : outer (s.abortSlot i) = outer s := by
  unfold State.abortSlot
  split
  · rfl
  · split <;> rfl

@[simp] theorem outer_duplicateHalt (s : State) : outer s.duplicateHalt = outer s := by
  simp only [State.duplicateHalt, outer_raiseState, outer_enter, outer_foldl outer_abortSlot]; rfl

@[simp] theorem outer_leaveStep (i : SlotIx) (s : State) : outer (s.leaveStep i) = outer s := by
  unfold State.leaveStep
  split <;> simp

theorem outer_endWaiting (s : State) (i : SlotIx) : outer (s.endWaiting i) = outer s := by
  unfold State.endWaiting
  split
  · rfl
  · split <;> simp

@[simp] theorem outer_enterLeaving (i : SlotIx) (s : State) : outer (s.enterLeaving i) = outer s := by
  simp [State.enterLeaving, outer_foldl outer_endWaiting]

@[simp] theorem outer_testLeaving (s : State) : outer s.testLeaving = outer s := by
  unfold State.testLeaving
  split
  · rw [endLeaving_eq, outer_raiseNotice]; rfl
  · rfl

/-! ### Receipts -/

@[simp] theorem outer_takeClaim (o : StationAddr) (b : ClaimBody) (s : State) : outer (s.takeClaim o b).1 = outer s := by
  have hengine : outer (s.engineTakesClaim o b).1 = outer s := by
    unfold State.engineTakesClaim
    split <;> rfl
  unfold State.takeClaim
  split
  · simp [State.leaseTakesClaim, hengine]
  · rfl

@[simp] theorem outer_takeSettle (o : StationAddr) (b : SettleBody) (s : State) : outer (s.takeSettle o b) = outer s := by
  unfold State.takeSettle
  split <;> simp

@[simp] theorem outer_takeRelease (o : StationAddr) (b : ReleaseBody) (s : State) : outer (s.takeRelease o b) = outer s := by
  unfold State.takeRelease
  split <;> simp

@[simp] theorem outer_takeRoll (o : StationAddr) (b : RollBody) (s : State) : outer (s.takeRoll o b).1 = outer s := by
  unfold State.takeRoll
  split
  · simp
  · split
    · simp
    · split
      · split <;> simp
      · rfl

theorem outer_takeForeign (f : Frame) (s : State) : outer (s.takeForeign f) = outer s := by
  cases hb : f.body with
  | roll b =>
    have htaken := outer_takeRoll f.origin b s
    cases h : s.takeRoll f.origin b with
    | mk t left =>
      rw [h] at htaken
      cases left with
      | none => rw [takeForeign_roll_removed hb h, htaken]
      | some b' => rw [takeForeign_roll_forwarded hb h, outer_forward, htaken]
  | _ => simp [State.takeForeign, hb]

@[simp] theorem outer_claimHome (b : ClaimBody) (s : State) : outer (s.claimHome b) = outer s := by
  unfold State.claimHome
  split
  · rfl
  · rw [outer_reexamine]
    unfold State.settleClaim
    split
    · rfl
    · unfold State.grantClaim
      split <;> rfl
    · rfl

@[simp] theorem outer_rollHome (b : RollBody) (s : State) : outer (s.rollHome b) = outer s := by
  unfold State.rollHome
  split
  · simp
  · split
    · exact outer_rollAfresh _
    · split <;> simp

theorem outer_probeHome (q : Byte) (s : State) : outer (s.probeHome q) = outer s := by
  unfold State.probeHome
  split <;> rfl

theorem outer_takeOwn (f : Frame) (s : State) : outer (s.takeOwn f) = outer s := by
  cases hb : f.body with
  | claim b => simp [State.takeOwn, hb]
  | roll b => simp [State.takeOwn, hb]
  | probe q => simp only [State.takeOwn, hb, outer_probeHome]
  | settle b | release b | roster b => simp only [State.takeOwn, hb]

@[simp] theorem outer_receive (f : Frame) (s : State) : outer (s.receive f) = outer s := by
  have hjudge : ∀ u, outer (State.judgeFrame f u) = outer u := fun u => by
    unfold State.judgeFrame
    split
    · exact outer_takeOwn f u
    · split
      · rfl
      · exact outer_takeForeign f u
  unfold State.receive
  split
  · dsimp only
    split <;> simp [hjudge]
  · rfl

theorem outer_receiveBad (l : List Byte) (s : State) : outer (s.receiveBad l) = outer s := by
  unfold State.receiveBad
  split <;> simp

theorem outer_startFrame (s : State) : outer s.startFrame = outer s := by
  unfold State.startFrame
  split <;> rfl

theorem outer_discardFraming (c : FramingCause) (s : State) : outer (s.discardFraming c) = outer s := by
  obtain ⟨x, n, h⟩ := s.discardFraming_changes c
  rw [h]; rfl

/-! ### Transmissions -/

theorem outer_transmitChoice (s : State) : outer s.transmitChoice = outer s := by
  unfold State.transmitChoice
  split <;> rfl

theorem outer_ownSent (kind : Byte) {report : OwnFrame → State → State} (hreport : ∀ f s, outer (report f s) = outer s) (s : State) :
    outer (s.ownSent kind report) = outer s := by
  unfold State.ownSent
  split
  · split
    · simp [hreport]
    · rfl
  · rfl

theorem outer_reportClaim (f : OwnFrame) (s : State) : outer (s.reportClaim f) = outer s := by
  unfold State.reportClaim
  split <;> rfl

theorem outer_chain (i : SlotIx) (s : State) : outer (s.chain i).1 = outer s := by
  unfold State.chain
  split
  · simp
  · rfl

theorem outer_retry (i : SlotIx) (s : State) : outer (s.retry i).1 = outer s := by
  unfold State.retry
  split
  · simp
  · rfl

/-- Each row of R95 leaves it. -/
theorem outer_settleRow (i : SlotIx) (a : Acquire) (r : Report) (s : State) : outer (s.settleRow i a r).1 = outer s := by
  unfold State.settleRow
  cases r with
  | granted =>
    dsimp only
    split
    · simp
    · split
      · exact outer_chain i s
      · simp
  | refused =>
    dsimp only
    split
    · exact outer_retry i s
    · simp
  | lostCircuit =>
    dsimp only
    split
    · simp
    · exact outer_retry i s
  | withdrawn cause => cases cause <;> exact outer_failAcquire ..

theorem outer_reportSettle (f : OwnFrame) (s : State) : outer (s.reportSettle f) = outer s := by
  unfold State.reportSettle
  split
  · rfl
  · rw [outer_reexamined]
    unfold State.settled
    split
    · rfl
    · split
      · split
        · rfl
        · exact outer_settleRow ..
      · rfl

theorem outer_reportRelease (f : OwnFrame) (s : State) : outer (s.reportRelease f) = outer s := by
  unfold State.reportRelease
  split
  · dsimp only
    split
    · simp
    · unfold State.released
      split
      · simp
      · split <;> simp
  · rfl

theorem outer_reportRoll (f : OwnFrame) (s : State) : outer (s.reportRoll f) = outer s := rfl
theorem outer_reportRoster (f : OwnFrame) (s : State) : outer (s.reportRoster f) = outer s := outer_makeHeld s
theorem outer_reportProbe (f : OwnFrame) (s : State) : outer (s.reportProbe f) = outer s := rfl

/-! ### Link status and timers -/

theorem outer_reportUp (s : State) : outer s.reportUp = outer s := by
  unfold State.reportUp
  split
  · have hup : outer s.linkComesUp = outer s := rfl
    unfold State.stationLinkUp
    split <;> simp [hup]
  · rfl

theorem outer_reportDown (s : State) : outer s.reportDown = outer s := by
  unfold State.reportDown
  split
  · have hdown : outer s.linkGoesDown = outer s := by rw [linkGoesDown_eq]; rfl
    unfold State.stationLinkDown
    split <;> simp [hdown]
  · rfl

theorem outer_circuitExpires (q : Byte) (s : State) : outer (s.circuitExpires q) = outer s := by
  unfold State.circuitExpires
  split
  · rfl
  · rw [outer_testLeaving, outer_reexamine]; rfl

theorem outer_intentExpires (k : Resource) (x : StationAddr) (s : State) : outer (s.intentExpires k x) = outer s := by
  unfold State.intentExpires
  split <;> simp

theorem outer_rollTimerExpires (s : State) : outer s.rollTimerExpires = outer s := by
  unfold State.rollTimerExpires
  split <;> simp

theorem outer_retiredExpires (s : State) : outer s.retiredExpires = outer s := by
  unfold State.retiredExpires
  split <;> rfl

theorem outer_probeExpires (s : State) : outer s.probeExpires = outer s := by
  unfold State.probeExpires
  split <;> rfl

/-! ### The other port cycles -/

theorem outer_readCompletion (first : Bool) (s : State) : outer (s.readCompletion first) = outer s := by
  unfold State.readCompletion
  split
  · rfl
  · unfold State.advanceRead
    split <;> rfl

theorem outer_probeWrite (s : State) : outer s.probeWrite = outer s := by
  unfold State.probeWrite
  split <;> rfl

/-! ### Requests -/

theorem outer_handleAcquire (i : SlotIx) (c : Client) (tag g m w : Byte) (f : Option Byte) (s : State) :
    outer (s.handleAcquire i c tag g m w f) = outer s := by
  unfold State.handleAcquire
  split
  · rfl
  · split
    · rfl
    · split
      · rfl
      · split <;> simp

theorem outer_handleRelease (i : SlotIx) (c : Client) (g : Byte) (note : List Byte) (s : State) :
    outer (s.handleRelease i c g note) = outer s := by
  unfold State.handleRelease
  split
  · rfl
  · split
    · rfl
    · split
      · split
        · rfl
        · simp
      · rfl

theorem outer_handleCancel (i : SlotIx) (c : Client) (g : Byte) (s : State) : outer (s.handleCancel i c g) = outer s := by
  unfold State.handleCancel
  split
  · rfl
  · split
    · rfl
    · split
      · split
        · simp
        · rfl
      all_goals rfl

theorem outer_handleQuery (i : SlotIx) (g : Byte) (s : State) : outer (s.handleQuery i g) = outer s := by
  unfold State.handleQuery
  split <;> rfl

/-! ### CONFIGURE among the requests (R141) -/

/-- What a command leaves: all of the outer state, but for configuration values set on the way from UNCONFIGURED to JOINING. -/
def Leaves (s t : State) : Prop :=
  { outer t with config := s.station.config } = outer s ∧
    (t.station.config ≠ s.station.config → s.station.state = .unconfigured ∧ t.station.state = .joining)

theorem Leaves.of_outer {s t : State} (h : outer t = outer s) : Leaves s t :=
  ⟨by rw [h]; rfl, fun hne => absurd (congrArg Outer.config h) hne⟩

theorem leaves_handleConfigure (i : SlotIx) (c : Configuration) {s : State} (h : s.station.state = .unconfigured) :
    Leaves s (s.handleConfigure i c) := by
  unfold State.handleConfigure
  split
  · exact ⟨by simp only [outer_raiseState]; rfl, fun _ => ⟨h, by simp⟩⟩
  · exact .of_outer rfl

/-- A request that proceeds; R80 lets a CONFIGURE proceed in UNCONFIGURED alone. -/
theorem leaves_handle (i : SlotIx) (c : Client) (tag : Byte) (r : Request) {s : State}
    (h : disposition r.kind s.station.state = .proceeds) : Leaves s (s.handle i c tag r) := by
  cases r with
  | configure interval units retry =>
    refine leaves_handleConfigure i _ ?_
    cases hs : s.station.state with
    | unconfigured => rfl
    | _ => rw [hs] at h; nomatch h
  | acquire g m w f => exact .of_outer (outer_handleAcquire i c tag g m w f s)
  | release g note => exact .of_outer (outer_handleRelease i c g note s)
  | cancel target => exact .of_outer (outer_handleCancel i c target s)
  | query g => exact .of_outer (outer_handleQuery i g s)
  | leave => exact .of_outer ((outer_testLeaving _).trans (outer_enterLeaving i s))
  | stats | clearFault | restart => exact .of_outer rfl

theorem leaves_commit (k : RequestKind) (r : HostRecord) (s : State) : Leaves s (s.commit k r) := by
  unfold State.commit
  dsimp only
  split
  · exact .of_outer rfl
  · split
    · exact .of_outer (outer_restart _)
    · unfold State.offerRequest
      split
      · exact .of_outer rfl
      · dsimp only
        split
        · rename_i i _ _ hd
          exact leaves_handle i r.clientNo r.tag (requestOf k r) (s := accepted i k r s) hd
        · exact .of_outer rfl
        · exact .of_outer rfl

theorem leaves_commitBytes (stored : List Byte) (declared : Byte) (s : State) : Leaves s (s.commitBytes stored declared) := by
  unfold State.commitBytes
  split
  · exact .of_outer rfl
  · exact leaves_commit ..

theorem leaves_requestByte (b : Byte) (s : State) : Leaves s (s.requestByte b) := by
  unfold State.requestByte
  split
  · exact .of_outer rfl
  · split
    · exact leaves_commitBytes ..
    · exact .of_outer rfl
  · dsimp only
    split
    · exact leaves_commitBytes ..
    · exact .of_outer rfl

/-! ### Commands -/

theorem leaves_effect (c : Instr) (s : State) : Leaves s (effect c s) := by
  cases c with
  | requestAssemblyByte b y => exact leaves_requestByte b s
  | configure r | acquire r | release r | cancel r | query r | stats r | clearFault r | leave r | restart r =>
    exact leaves_commit _ r s
  | completionRead first y => exact .of_outer (outer_readCompletion first s)
  | probe b y => exact .of_outer (outer_probeWrite s)
  | framingDiscard c => exact .of_outer (outer_discardFraming c s)
  | formatDiscard l => exact .of_outer (outer_receiveBad l s)
  | claimReceipt | settleReceipt | releaseReceipt | rollReceipt | rosterReceipt | probeForward | ownClaimReturn | ownRollReturn
  | ownProbeReturn | ownFrameStripped => exact .of_outer (outer_receive _ s)
  | transmitChoice => exact .of_outer (outer_transmitChoice s)
  | claimTransmitted => exact .of_outer (outer_ownSent _ outer_reportClaim s)
  | settleTransmitted => exact .of_outer (outer_ownSent _ outer_reportSettle s)
  | releaseTransmitted => exact .of_outer (outer_ownSent _ outer_reportRelease s)
  | rollTransmitted => exact .of_outer (outer_ownSent _ outer_reportRoll s)
  | rosterTransmitted => exact .of_outer (outer_ownSent _ outer_reportRoster s)
  | probeTransmitted => exact .of_outer (outer_ownSent _ outer_reportProbe s)
  | heldOrigination => exact .of_outer (outer_makeHeld s)
  | linkUp => exact .of_outer (outer_reportUp s)
  | linkDown => exact .of_outer (outer_reportDown s)
  | circuitTimeout q => exact .of_outer (outer_circuitExpires q s)
  | intentExpiry k x => exact .of_outer (outer_intentExpires k x s)
  | rollTimerExpiry => exact .of_outer (outer_rollTimerExpires s)
  | rollLost | abandonedRollExpiry => exact .of_outer (outer_rollAgesOut _ s)
  | retiredRollExpiry => exact .of_outer (outer_retiredExpires s)
  | probeTimeout => exact .of_outer (outer_probeExpires s)
  | endOfLeaving => exact .of_outer (outer_testLeaving s)
  | frameStart => exact .of_outer (outer_startFrame s)
  | _ => exact .of_outer rfl

theorem leaves_exec {c : Instr} (h : isPower c = false) {s t : State} (ht : exec c s = .next t) : Leaves s t := by
  rcases exec_outcome h ht with rfl | rfl | rfl | rfl
  · exact .of_outer rfl
  · exact .of_outer rfl
  · exact leaves_effect c s
  · exact leaves_effect c s

/-- The power commands leave the receive line and the queue of commands, both outside the part (log 1, log 5). -/
theorem lines_exec_power {c : Instr} (h : isPower c = true) {s t : State} (ht : exec c s = .next t) :
    t.pending = s.pending ∧ t.rxLine = s.rxLine := by
  rcases exec_power h ht with rfl | ⟨_, _, _, rfl⟩ | ⟨_, rfl⟩ | ⟨_, _, _, _, rfl⟩ <;> exact ⟨rfl, rfl⟩

/-- Settles O60: the outer state, field by field. -/
theorem commandsKeepAddressAndConfiguration : Obligations.CommandsKeepAddressAndConfiguration := by
  intro c s t ht
  cases hp : isPower c with
  | true =>
    obtain ⟨hpending, hrx⟩ := lines_exec_power hp ht
    exact ⟨hpending, hrx, fun hf => nomatch hf⟩
  | false =>
    obtain ⟨houter, hconfig⟩ := leaves_exec hp ht
    simp only [outer, Outer.mk.injEq] at houter
    obtain ⟨hsupply, hreset, hpor, hstraps, hrx, hpending, haddress, -, hmicros⟩ := houter
    have hin : t.inReset = s.inReset := by rw [State.inReset, hsupply, hreset]; rfl
    exact ⟨hpending, hrx, fun _ => ⟨haddress, hmicros, hstraps, hpor, hin, hconfig⟩⟩

end Sys2Proof.StationProofs

/-! ## Writes to REQUEST (O5) -/

namespace Sys2Proof.PortProofs
open Sys2Proof.Machine Sys2Proof.Statement Sys2Proof.RequestProofs

theorem strobe_wf_of_taken {y : Strobe} (h : taken y) : y.wf = true := decide_eq_true h

/-! ### One byte (R185) -/

/-- Outside reset a byte that brings no frame has its effect and nothing more. -/
theorem exec_requestByte_quiet {b : Byte} {y : Strobe} {s t : State} (hr : s.inReset = false) (hy : taken y)
    (ht : s.requestByte b = t) (ho : t.outbound = s.outbound) (hf : t.ring.forwarding = s.ring.forwarding) :
    exec (.requestAssemblyByte b y) s = .next t := by
  rw [exec_requestAssemblyByte b y s hr (strobe_wf_of_taken hy), ht, State.startIdle_quiet t s ho hf]

section Bytes
variable {s : State}

theorem requestByte_empty (h : s.host.assembly = .empty) (b : Byte) :
    s.requestByte b = { s with host := { s.host with assembly := .kind b } } := by
  simp only [State.requestByte, h]

theorem requestByte_length {k : Byte} (h : s.host.assembly = .kind k) {b : Byte} (hb : 2 < b.toNat) :
    s.requestByte b = { s with host := { s.host with assembly := .counting [k, b] b 2 } } := by
  simp only [State.requestByte, h, if_neg (Nat.not_le.2 hb)]

theorem requestByte_length_short {k : Byte} (h : s.host.assembly = .kind k) {b : Byte} (hb : b.toNat ≤ 2) :
    s.requestByte b = s.commitBytes [k, b] b := by
  simp only [State.requestByte, h, if_pos hb]

theorem requestByte_counts {stored : List Byte} {declared : Byte} {count : Nat}
    (h : s.host.assembly = .counting stored declared count) (hc : count + 1 ≠ declared.toNat) (b : Byte) :
    s.requestByte b = { s with host := { s.host with
      assembly := .counting (if count < 40 then stored ++ [b] else stored) declared (count + 1) } } := by
  simp only [State.requestByte, h, if_neg hc]
  rfl

theorem requestByte_last {stored : List Byte} {declared : Byte} {count : Nat}
    (h : s.host.assembly = .counting stored declared count) (hc : count + 1 = declared.toNat) (b : Byte) :
    s.requestByte b = s.commitBytes (if count < 40 then stored ++ [b] else stored) declared := by
  simp only [State.requestByte, h, if_pos hc]
  rfl

end Bytes

/-! ### The record in the buffer commits (R186, R187) -/

@[simp] theorem requestKindOf_code (k : RequestKind) : requestKindOf k.code = some k := by cases k <;> rfl

theorem requestKindOf_eq_none {b : Byte} (h : b.toNat = 0 ∨ 9 < b.toNat) : requestKindOf b = none := by
  have hne : ∀ c : Byte, 1 ≤ c.toNat → c.toNat ≤ 9 → b ≠ c := fun c hlow hhigh e => by subst e; omega
  simp [requestKindOf, hne]

theorem commitBytes_of_kind {stored : List Byte} {k : RequestKind} (h : requestKindOf (stored.getD 0 0) = some k) (declared : Byte)
    (s : State) : s.commitBytes stored declared =
      s.commit k { declared := declared, client := stored.getD 2 0, tag := stored.getD 3 0, body := stored.drop 4 } := by
  simp only [State.commitBytes, h]

theorem commitBytes_unknown {stored : List Byte} (h : requestKindOf (stored.getD 0 0) = none) (declared : Byte) (s : State) :
    s.commitBytes stored declared = dropped s := by
  simp only [State.commitBytes, h]
  rfl

/-- A declared length below 4 is allowed for no kind (R187). -/
theorem formOk_of_short {k : RequestKind} {r : HostRecord} (h : r.declared.toNat < 4) : formOk k r = false :=
  Bool.eq_false_iff.2 fun hform => by
    obtain ⟨hlength, -, -⟩ := (formOk_iff k r).1 hform
    omega

theorem commitBytes_short {declared : Byte} (h : declared.toNat < 4) (stored : List Byte) (s : State) :
    s.commitBytes stored declared = dropped s := by
  cases hk : requestKindOf (stored.getD 0 0) with
  | none => exact commitBytes_unknown hk declared s
  | some k => rw [commitBytes_of_kind hk, commit_malformed (formOk_of_short h)]

/-- Every declared length that a kind allows fits the 40 bytes that the buffer keeps (R185, R187). -/
theorem declared_le_of_allowed {k : RequestKind} {r : HostRecord} (h : lengthAllowed k r = true) : r.declared.toNat ≤ 40 := by
  cases k with
  | acquire =>
    simp only [lengthAllowed, Bool.or_eq_true, decide_eq_true_eq] at h
    omega
  | release =>
    simp only [lengthAllowed, Bool.and_eq_true, decide_eq_true_eq] at h
    omega
  | _ => exact Nat.le_trans (Nat.le_of_eq (of_decide_eq_true h)) (by decide)

theorem formOk_of_long {k : RequestKind} {r : HostRecord} (h : 40 < r.declared.toNat) : formOk k r = false :=
  Bool.eq_false_iff.2 fun hform => by
    obtain ⟨-, -, hallowed⟩ := (formOk_iff k r).1 hform
    exact Nat.not_le.2 h (declared_le_of_allowed hallowed)

/-- The bytes that the buffer does not keep make no difference: a record that has them is malformed with them and without. -/
theorem commit_kept (k : RequestKind) {r : HostRecord} (hr : r.wf = true) (s : State) :
    s.commit k { r with body := r.body.take 36 } = s.commit k r := by
  by_cases hlong : 36 < r.body.length
  · have hlength : r.declared.toNat = 4 + r.body.length := of_decide_eq_true hr
    have hdropped : ∀ q : HostRecord, q.declared = r.declared → s.commit k q = dropped s :=
      fun q hq => commit_malformed (formOk_of_long (by rw [hq]; omega)) s
    exact (hdropped { r with body := r.body.take 36 } rfl).trans (hdropped r rfl).symm
  · rw [List.take_of_length_le (Nat.not_lt.1 hlong)]

theorem commitBytes_record (k : RequestKind) {r : HostRecord} (hr : r.wf = true) (s : State) :
    s.commitBytes ((k.code :: r.declared :: r.client :: r.tag :: r.body).take 40) r.declared = s.commit k r :=
  (commitBytes_of_kind (by exact requestKindOf_code k) r.declared s).trans (commit_kept k hr s)

/-! ### A record byte by byte -/

/-- The state with the assembly buffer moved. -/
def withAssembly (a : Assembly) (s : State) : State := { s with host := { s.host with assembly := a } }

/-- A commit does not look at the assembly buffer, which it empties. -/
theorem commitBytes_withAssembly (a : Assembly) (stored : List Byte) (declared : Byte) (s : State) :
    (withAssembly a s).commitBytes stored declared = s.commitBytes stored declared := rfl

/-- The buffer keeps the first 40 of the bytes written (R185). -/
theorem kept_append (all : List Byte) (b : Byte) :
    (if all.length < 40 then all.take 40 ++ [b] else all.take 40) = (all ++ [b]).take 40 := by
  split
  · rename_i h
    rw [List.take_of_length_le (Nat.le_of_lt h), List.take_of_length_le (by rw [List.length_append]; exact h)]
  · rename_i h
    rw [List.take_append_of_le_length (Nat.not_lt.1 h)]

theorem writeBytes_cons {b : Byte} {s t : State} (h : exec (.requestAssemblyByte b) s = .next t) (bs : List Byte) :
    writeBytes (b :: bs) s = writeBytes bs t := by
  simp only [writeBytes, h]

section Assembling
variable {declared : Byte} {s : State} (hr : s.inReset = false) (b : Byte) (all : List Byte)
include hr

/-- A byte before the last joins those in the buffer. -/
theorem exec_byte_counts (hc : all.length + 1 ≠ declared.toNat) :
    exec (.requestAssemblyByte b) (withAssembly (.counting (all.take 40) declared all.length) s) =
      .next (withAssembly (.counting ((all ++ [b]).take 40) declared (all ++ [b]).length) s) := by
  refine exec_requestByte_quiet (s := withAssembly _ s) hr (Nat.le_refl 60) ?_ rfl rfl
  rw [requestByte_counts rfl hc b, kept_append, List.length_append]
  rfl

/-- The last byte commits the record. -/
theorem exec_byte_last (hc : all.length + 1 = declared.toNat) :
    exec (.requestAssemblyByte b) (withAssembly (.counting (all.take 40) declared all.length) s) =
      atOnce s (s.commitBytes ((all ++ [b]).take 40) declared) := by
  rw [exec_requestAssemblyByte b .shortest _ (by exact hr) rfl, requestByte_last rfl hc b, kept_append,
    commitBytes_withAssembly]
  rfl

end Assembling

/-- The bytes still to come of a record whose first bytes stand in the buffer: the last one commits it. -/
theorem writeBytes_counting {declared : Byte} {s : State} (hr : s.inReset = false) (b : Byte) (bs all : List Byte)
    (hd : all.length + 1 + bs.length = declared.toNat) :
    writeBytes (b :: bs) (withAssembly (.counting (all.take 40) declared all.length) s) =
      atOnce s (s.commitBytes ((all ++ b :: bs).take 40) declared) := by
  induction bs generalizing b all with
  | nil => exact writeBytes_cons (exec_byte_last hr b all hd) []
  | cons c bs ih =>
    rw [List.length_cons] at hd
    have hlength : (all ++ [b]).length + 1 + bs.length = declared.toNat := by rw [List.length_append, List.length_singleton]; omega
    rw [writeBytes_cons (exec_byte_counts hr b all (by omega)), ih c (all ++ [b]) hlength, List.append_assoc]
    rfl

/-- A whole record written into an EMPTY buffer has the effect of its commit. -/
theorem writeBytes_record (k : RequestKind) {r : HostRecord} {s : State} (hr : s.inReset = false)
    (hempty : s.host.assembly = .empty) (hwf : r.wf = true) :
    writeBytes (k.code :: r.declared :: r.client :: r.tag :: r.body) s = atOnce s (s.commit k r) := by
  have hlength : r.declared.toNat = 4 + r.body.length := of_decide_eq_true hwf
  have hkind : exec (.requestAssemblyByte k.code) s = .next (withAssembly (.kind k.code) s) :=
    exec_requestByte_quiet hr (Nat.le_refl 60) (requestByte_empty hempty _) rfl rfl
  have hdeclared : exec (.requestAssemblyByte r.declared) (withAssembly (.kind k.code) s) =
      .next (withAssembly (.counting [k.code, r.declared] r.declared 2) s) :=
    exec_requestByte_quiet (s := withAssembly _ s) hr (Nat.le_refl 60) (requestByte_length rfl (by omega)) rfl rfl
  rw [writeBytes_cons hkind, writeBytes_cons hdeclared, ← commitBytes_record k hwf s]
  exact writeBytes_counting hr r.client (r.tag :: r.body) [k.code, r.declared] (by simp only [List.length_cons, List.length_nil]; omega)

/-- Settles O5: the table of R185 row by row, and the whole record by induction on its bytes. -/
theorem writtenBytesAssembleARecord : Obligations.WrittenBytesAssembleARecord := by
  refine ⟨fun b y s hr hy => ⟨fun h => ?kind, fun k h hb => ?length, fun k h hb => ?short, fun stored declared count h hc => ?counts,
    fun k stored declared count h hc hk => ?unknown⟩, fun k r s hr hempty hwf => ?record⟩
  case kind => exact exec_requestByte_quiet hr hy (requestByte_empty h b) rfl rfl
  case length => exact exec_requestByte_quiet hr hy (requestByte_length h hb) rfl rfl
  case short =>
    have hdropped := (requestByte_length_short h hb).trans (commitBytes_short (Nat.lt_of_le_of_lt hb (by decide)) _ s)
    exact exec_requestByte_quiet hr hy hdropped rfl rfl
  case counts => exact exec_requestByte_quiet hr hy (requestByte_counts h hc b) rfl rfl
  case unknown =>
    have hhead : requestKindOf ((if count < 40 then (k :: stored) ++ [b] else k :: stored).getD 0 0) = none := by
      rw [← requestKindOf_eq_none hk]
      split <;> rfl
    exact exec_requestByte_quiet hr hy ((requestByte_last h hc b).trans (commitBytes_unknown hhead declared s)) rfl rfl
  case record => rw [writeBytes_record k hr hempty hwf, exec_request k r s hr]

end Sys2Proof.PortProofs

/-! ## STATUS and its flags (O24) -/

namespace Sys2Proof.PortProofs
open Sys2Proof.Machine Sys2Proof.Statement

/-! ### Bytes of flags (R208) -/

theorem testBit_flags (flags : List Bool) (i : Nat) :
    (flags.foldr (fun (f : Bool) n => f.toNat + 2 * n) 0).testBit i = flags.getD i false := by
  induction flags generalizing i with
  | nil => simp
  | cons f fs ih =>
    cases i with
    | zero => cases f <;> simp [Nat.testBit_zero]
    | succ i =>
      have hhalf : ∀ n, (f.toNat + 2 * n) / 2 = n := fun n => by have := f.toNat_le; omega
      rw [List.foldr_cons, Nat.testBit_succ, hhalf, ih]
      rfl

theorem getLsbD_byteOfFlags (flags : List Bool) {i : Nat} (hi : i < 8) : (byteOfFlags flags).getLsbD i = flags.getD i false := by
  rw [byteOfFlags, BitVec.getLsbD_ofNat, testBit_flags, decide_eq_true hi, Bool.true_and]

/-! ### A write to STATUS (R189, R194) -/

/-- The state after a STATUS write that carries these bits: REFUSED, NOTICE_LOST, PROBE_DONE, PROBE_BUSY and the abandon bit. -/
def statusCleared (r n d p a : Bool) (s : State) : State :=
  { s with
    host := { s.host with
      refused := s.host.refused && !r, noticeLost := s.host.noticeLost && !n
      assembly := if a then .empty else s.host.assembly }
    probe := { s.probe with done := s.probe.done && !d, busy := s.probe.busy && !p } }

/-- The bits that a STATUS write uses of a byte joined with a mask. -/
theorem statusWrite_or (b m : Byte) (s : State) : s.statusWrite (b ||| m) =
    statusCleared (b.getLsbD 0 || m.getLsbD 0) (b.getLsbD 1 || m.getLsbD 1) (b.getLsbD 2 || m.getLsbD 2)
      (b.getLsbD 3 || m.getLsbD 3) (b.getLsbD 7 || m.getLsbD 7) s := by
  simp only [State.statusWrite, statusCleared, BitVec.getLsbD_or]

section StatusWrites
variable (b : Byte) (s : State)

theorem statusWrite_abandon : s.statusWrite (b ||| 0x80) =
    statusCleared (b.getLsbD 0) (b.getLsbD 1) (b.getLsbD 2) (b.getLsbD 3) true s := by simp [statusWrite_or]

theorem statusWrite_refused : s.statusWrite (b ||| 0x01) =
    statusCleared true (b.getLsbD 1) (b.getLsbD 2) (b.getLsbD 3) (b.getLsbD 7) s := by simp [statusWrite_or]

theorem statusWrite_noticeLost : s.statusWrite (b ||| 0x02) =
    statusCleared (b.getLsbD 0) true (b.getLsbD 2) (b.getLsbD 3) (b.getLsbD 7) s := by simp [statusWrite_or]

theorem statusWrite_probeDone : s.statusWrite (b ||| 0x04) =
    statusCleared (b.getLsbD 0) (b.getLsbD 1) true (b.getLsbD 3) (b.getLsbD 7) s := by simp [statusWrite_or]

theorem statusWrite_probeBusy : s.statusWrite (b ||| 0x08) =
    statusCleared (b.getLsbD 0) (b.getLsbD 1) (b.getLsbD 2) true (b.getLsbD 7) s := by simp [statusWrite_or]

end StatusWrites

/-! ### A read of STATUS (R193, R208) -/

/-- Outside reset bit i of a STATUS read is the i-th of these flags, 0 beyond them. -/
theorem status_read_bit {s : State} (hr : s.inReset = false) {i : Nat} (hi : i < 8) : (portRead 2 s).getLsbD i =
    [s.host.refused, s.host.noticeLost, s.probe.done, s.probe.busy, s.recordReady, s.assembling].getD i false := by
  have hread : portRead 2 s = s.statusByte := by rw [portRead, hr]; rfl
  rw [hread, State.statusByte, getLsbD_byteOfFlags _ hi]

theorem recordReady_iff (s : State) : s.recordReady = true ↔ s.table.queue ≠ [] := by simp [State.recordReady]

theorem assembling_iff (s : State) : s.assembling = true ↔ s.host.assembly ≠ .empty := by
  unfold State.assembling
  cases s.host.assembly <;> simp

/-- Settles O24: the bits that each write carries, and the flags that a read shows. -/
theorem statusWriteClearsFlags : Obligations.StatusWriteClearsFlags := by
  refine ⟨fun b y s hr hy => ?writes, fun s hr => ?read⟩
  case writes =>
    have hwf := strobe_wf_of_taken hy
    intro left written b0 b1 b2 b3 b7
    exact ⟨(exec_abandon b y s hr hwf).trans (congrArg _ (statusWrite_abandon b s)),
      (exec_clearRefused b y s hr hwf).trans (congrArg _ (statusWrite_refused b s)),
      (exec_clearNoticeLost b y s hr hwf).trans (congrArg _ (statusWrite_noticeLost b s)),
      (exec_clearProbeDone b y s hr hwf).trans (congrArg _ (statusWrite_probeDone b s)),
      (exec_clearProbeBusy b y s hr hwf).trans (congrArg _ (statusWrite_probeBusy b s))⟩
  case read =>
    have hbit : ∀ i < 8, _ := fun i => status_read_bit hr (i := i)
    exact ⟨hbit 0 (by decide), hbit 1 (by decide), hbit 2 (by decide), hbit 3 (by decide),
      (Bool.eq_iff_iff.1 (hbit 4 (by decide))).trans (recordReady_iff s),
      (Bool.eq_iff_iff.1 (hbit 5 (by decide))).trans (assembling_iff s), hbit 6 (by decide), hbit 7 (by decide)⟩

end Sys2Proof.PortProofs

/-! ## The interrupt mask (O25) -/

namespace Sys2Proof.PortProofs
open Sys2Proof.Machine Sys2Proof.Statement Sys2Proof.LeaseProofs Sys2Proof.RollProofs Sys2Proof.StationProofs

/-- The two enables of the interrupt mask, RECORD_INT and NOTICE_LOST_INT (R195). -/
def enables (h : HostPort) : Bool × Bool := (h.recordInt, h.noticeLostInt)

/-! ### Changes that leave the Host Port alone -/

section HostPortKept
variable (s : State)

@[simp] theorem reexamine_host (w : Work) : (s.reexamine w).host = s.host := (Served.reexamine w s).host
@[simp] theorem reexamined_host (p : State × Work) : (reexamined p).host = p.1.host := (Served.reexamined p).host
@[simp] theorem examine_host (i : SlotIx) : (s.examine i).1.host = s.host := (Served.examine s i).host
@[simp] theorem failAcquire_host (i : SlotIx) (st : Status) : (s.failAcquire i st).1.host = s.host := (Served.failAcquire s i st).host
@[simp] theorem succeedAcquire_host (i : SlotIx) : (s.succeedAcquire i).1.host = s.host := (Served.succeedAcquire s i).host

@[simp] theorem arrive_host (l : List Byte) : (s.arrive l).host = s.host := by
  obtain ⟨x, p, h⟩ := arrive_changes l s
  rw [h]

/-- A fold over slots leaves it alone where each of its changes does. -/
theorem foldl_host {g : State → SlotIx → State} (hg : ∀ s i, (g s i).host = s.host) (is : List SlotIx) :
    (is.foldl g s).host = s.host :=
  foldSlots (P := fun t => t.host = s.host) g (fun t i ht => (hg t i).trans ht) is s rfl

theorem endWaiting_host (i : SlotIx) : (s.endWaiting i).host = s.host := by
  unfold State.endWaiting
  split
  · rfl
  · split <;> simp

@[simp] theorem leaveStep_host (i : SlotIx) : (s.leaveStep i).host = s.host := by
  unfold State.leaveStep
  split <;> rfl

@[simp] theorem enterLeaving_host (i : SlotIx) : (s.enterLeaving i).host = s.host := by
  simp [State.enterLeaving, foldl_host _ endWaiting_host]

@[simp] theorem startRollTimer_host : s.startRollTimer.host = s.host := by
  unfold State.startRollTimer
  split <;> rfl

@[simp] theorem originate_host : s.originate.host = s.host := by
  unfold State.originate
  split <;> rfl

@[simp] theorem originateIfNone_host : s.originateIfNone.host = s.host := by
  unfold State.originateIfNone
  split <;> simp

@[simp] theorem makeHeld_host : s.makeHeld.host = s.host := by
  unfold State.makeHeld
  split
  · split <;> rfl
  · rfl

@[simp] theorem rollAgesOut_host (p : RollPhase) : (s.rollAgesOut p).host = s.host := by
  unfold State.rollAgesOut State.loseRoll
  split
  · dsimp only
    split <;> simp
  · rfl

@[simp] theorem abandonRoll_host : s.abandonRoll.host = s.host := by
  unfold State.abandonRoll
  split
  · rfl
  · dsimp only
    split <;> simp

@[simp] theorem rosterClears_host : s.rosterClears.host = s.host := by
  obtain ⟨fs, r, h, -⟩ := rosterClears_changes s
  rw [h]

@[simp] theorem abandonedHome_host : s.abandonedHome.host = s.host := by
  unfold State.abandonedHome
  dsimp only
  split
  · simp
  · split <;> simp

@[simp] theorem takeClaim_host (o : StationAddr) (b : ClaimBody) : (s.takeClaim o b).1.host = s.host := by
  have hengine : (s.engineTakesClaim o b).1.host = s.host := by
    unfold State.engineTakesClaim
    split <;> rfl
  unfold State.takeClaim
  split
  · simp [State.leaseTakesClaim, hengine]
  · rfl

@[simp] theorem takeSettle_host (o : StationAddr) (b : SettleBody) : (s.takeSettle o b).host = s.host := by
  unfold State.takeSettle
  split <;> simp

@[simp] theorem takeRelease_host (o : StationAddr) (b : ReleaseBody) : (s.takeRelease o b).host = s.host := by
  unfold State.takeRelease
  split <;> simp

@[simp] theorem claimHome_host (b : ClaimBody) : (s.claimHome b).host = s.host := by
  unfold State.claimHome
  split
  · rfl
  · rw [reexamine_host]
    unfold State.settleClaim
    split
    · rfl
    · unfold State.grantClaim
      split <;> rfl
    · rfl

@[simp] theorem probeHome_host (q : Byte) : (s.probeHome q).host = s.host := by
  unfold State.probeHome
  split <;> rfl

theorem reportClaim_host (f : OwnFrame) : (s.reportClaim f).host = s.host := by
  unfold State.reportClaim
  split <;> rfl

theorem chain_host (i : SlotIx) : (s.chain i).1.host = s.host := by
  unfold State.chain
  split
  · simp
  · rfl

theorem retry_host (i : SlotIx) : (s.retry i).1.host = s.host := by
  unfold State.retry
  split
  · simp
  · rfl

/-- Each row of R95 leaves it alone. -/
theorem settleRow_host (i : SlotIx) (a : Acquire) (r : Report) : (s.settleRow i a r).1.host = s.host := by
  unfold State.settleRow
  cases r with
  | granted =>
    dsimp only
    split
    · simp
    · split
      · exact chain_host s i
      · simp
  | refused =>
    dsimp only
    split
    · exact retry_host s i
    · simp
  | lostCircuit =>
    dsimp only
    split
    · simp
    · exact retry_host s i
  | withdrawn cause => cases cause <;> exact failAcquire_host ..

theorem reportSettle_host (f : OwnFrame) : (s.reportSettle f).host = s.host := by
  unfold State.reportSettle
  split
  · rfl
  · rw [reexamined_host]
    unfold State.settled
    split
    · rfl
    · split
      · split
        · rfl
        · exact settleRow_host ..
      · rfl

theorem reportRelease_host (f : OwnFrame) : (s.reportRelease f).host = s.host := by
  unfold State.reportRelease
  split
  · dsimp only
    split
    · simp
    · unfold State.released
      split
      · simp
      · split <;> simp
  · rfl

theorem startFrame_host : s.startFrame.host = s.host := by
  unfold State.startFrame
  split <;> rfl

theorem discardFraming_host (c : FramingCause) : (s.discardFraming c).host = s.host := by
  obtain ⟨x, n, h⟩ := s.discardFraming_changes c
  rw [h]

theorem receiveBad_host (l : List Byte) : (s.receiveBad l).host = s.host := by
  unfold State.receiveBad
  split <;> simp

theorem transmitChoice_host : s.transmitChoice.host = s.host := by
  unfold State.transmitChoice
  split <;> rfl

theorem intentExpires_host (k : Resource) (x : StationAddr) : (s.intentExpires k x).host = s.host := by
  unfold State.intentExpires
  split <;> simp

theorem rollTimerExpires_host : s.rollTimerExpires.host = s.host := by
  unfold State.rollTimerExpires
  split <;> simp

theorem retiredExpires_host : s.retiredExpires.host = s.host := by
  unfold State.retiredExpires
  split <;> rfl

theorem probeExpires_host : s.probeExpires.host = s.host := by
  unfold State.probeExpires
  split <;> rfl

theorem probeWrite_host : s.probeWrite.host = s.host := by
  unfold State.probeWrite
  split <;> rfl

theorem handleAcquire_host (i : SlotIx) (c : Client) (tag g m w : Byte) (f : Option Byte) :
    (s.handleAcquire i c tag g m w f).host = s.host := by
  unfold State.handleAcquire
  split
  · rfl
  · split
    · rfl
    · split
      · rfl
      · split <;> simp

theorem handleRelease_host (i : SlotIx) (c : Client) (g : Byte) (note : List Byte) : (s.handleRelease i c g note).host = s.host := by
  unfold State.handleRelease
  split
  · rfl
  · split
    · rfl
    · split
      · split
        · rfl
        · simp
      · rfl

theorem handleCancel_host (i : SlotIx) (c : Client) (g : Byte) : (s.handleCancel i c g).host = s.host := by
  unfold State.handleCancel
  split
  · rfl
  · split
    · rfl
    · split
      · split
        · simp
        · rfl
      all_goals rfl

theorem handleQuery_host (i : SlotIx) (g : Byte) : (s.handleQuery i g).host = s.host := by
  unfold State.handleQuery
  split <;> rfl

end HostPortKept

/-! ### Changes that raise notices -/

section Notices
variable (s : State)

/-- A notice can set NOTICE_LOST, and no enable (R107). -/
@[simp] theorem enables_raiseNotice (n : Notice) : enables (s.raiseNotice n).host = enables s.host := by
  unfold State.raiseNotice
  split <;> rfl

@[simp] theorem enables_raiseState (c : NoticeCause) (st : StationState) : enables (s.raiseState c st).host = enables s.host :=
  enables_raiseNotice s _

@[simp] theorem enables_raiseRoster (q : Byte) (old new : List RosterEntry) :
    enables (s.raiseRoster q old new).host = enables s.host := by
  unfold State.raiseRoster
  dsimp only
  split <;> simp

@[simp] theorem enables_rollDone : enables s.rollDone.host = enables s.host := by
  unfold State.rollDone
  split <;> simp

@[simp] theorem enables_completeRoll (b : RollBody) : enables (s.completeRoll b).host = enables s.host := by
  simp [State.completeRoll]

theorem enables_takeRoster (b : RosterBody) : enables (s.takeRoster b).host = enables s.host := by
  unfold State.takeRoster
  split
  · unfold State.acceptRoster State.restartTimer
    dsimp only
    split <;> simp
  · simp

/-- RESTART keeps the enables (R155, R200). -/
theorem enables_restart : enables s.restart.host = enables s.host := by
  simp only [State.restart, enables_raiseState]
  rfl

theorem enables_duplicateHalt : enables s.duplicateHalt.host = enables s.host := by
  rw [duplicateHalt_eq, enables_raiseNotice]
  rfl

@[simp] theorem enables_testLeaving : enables s.testLeaving.host = enables s.host := by
  unfold State.testLeaving
  split
  · rw [endLeaving_eq, enables_raiseNotice]
    rfl
  · rfl

theorem enables_takeRoll (o : StationAddr) (b : RollBody) : enables (s.takeRoll o b).1.host = enables s.host := by
  unfold State.takeRoll
  split
  · exact enables_duplicateHalt s
  · split
    · rfl
    · split
      · split <;> simp
      · rfl

theorem enables_takeForeign (f : Frame) : enables (s.takeForeign f).host = enables s.host := by
  cases hb : f.body with
  | roll b =>
    have htaken := enables_takeRoll s f.origin b
    cases h : s.takeRoll f.origin b with
    | mk t left =>
      rw [h] at htaken
      cases left with
      | none => rw [takeForeign_roll_removed hb h, htaken]
      | some b' => rw [takeForeign_roll_forwarded hb h, State.forward_host, htaken]
  | roster b => simp [State.takeForeign, hb, enables_takeRoster]
  | claim b | settle b | release b | probe q => simp [State.takeForeign, hb]

theorem enables_rollHome (b : RollBody) : enables (s.rollHome b).host = enables s.host := by
  unfold State.rollHome
  split
  · exact enables_completeRoll s b
  · split
    · simp
    · split
      · rfl
      · exact enables_duplicateHalt s

theorem enables_takeOwn (f : Frame) : enables (s.takeOwn f).host = enables s.host := by
  cases hb : f.body with
  | roll b => simp only [State.takeOwn, hb, enables_rollHome]
  | claim b | settle b | release b | roster b | probe q => simp [State.takeOwn, hb]

theorem enables_receive (f : Frame) : enables (s.receive f).host = enables s.host := by
  have hjudge : ∀ u, enables (State.judgeFrame f u).host = enables u.host := fun u => by
    unfold State.judgeFrame
    split
    · exact enables_takeOwn u f
    · split
      · rfl
      · exact enables_takeForeign u f
  unfold State.receive
  split
  · dsimp only
    split <;> simp [hjudge]
  · rfl

/-- The report of a sent own frame keeps the enables where the maker's part leaves the Host Port alone. -/
theorem enables_ownSent (kind : Byte) {report : OwnFrame → State → State} (hreport : ∀ s f, (report f s).host = s.host) :
    enables (s.ownSent kind report).host = enables s.host := by
  unfold State.ownSent
  split
  · split
    · simp [hreport]
    · rfl
  · rfl

theorem enables_reportUp : enables s.reportUp.host = enables s.host := by
  unfold State.reportUp
  split
  · have hup : s.linkComesUp.host = s.host := rfl
    unfold State.stationLinkUp
    split <;> simp [hup]
  · rfl

theorem enables_reportDown : enables s.reportDown.host = enables s.host := by
  unfold State.reportDown
  split
  · have hdown : s.linkGoesDown.host = s.host := by rw [linkGoesDown_eq]; rfl
    unfold State.stationLinkDown
    split <;> simp [hdown]
  · rfl

theorem enables_circuitExpires (q : Byte) : enables (s.circuitExpires q).host = enables s.host := by
  unfold State.circuitExpires
  split
  · rfl
  · simp

/-! ### Requests and reads of COMPLETION -/

theorem enables_handleConfigure (i : SlotIx) (c : Configuration) : enables (s.handleConfigure i c).host = enables s.host := by
  unfold State.handleConfigure
  split
  · simp
  · rfl

theorem enables_handle (i : SlotIx) (c : Client) (tag : Byte) (r : Request) : enables (s.handle i c tag r).host = enables s.host := by
  cases r with
  | configure interval units retry => exact enables_handleConfigure s i _
  | acquire g m w f => exact congrArg enables (handleAcquire_host s i c tag g m w f)
  | release g note => exact congrArg enables (handleRelease_host s i c g note)
  | cancel target => exact congrArg enables (handleCancel_host s i c target)
  | query g => exact congrArg enables (handleQuery_host s i g)
  | leave => exact (enables_testLeaving _).trans (congrArg enables (enterLeaving_host s i))
  | stats | clearFault | restart => rfl

theorem enables_offerRequest (c : Client) (tag : Byte) (r : Request) : enables (s.offerRequest c tag r).host = enables s.host := by
  unfold State.offerRequest
  split
  · rfl
  · dsimp only
    split
    · exact enables_handle _ _ c tag r
    · rfl
    · rfl

theorem enables_commit (k : RequestKind) (r : HostRecord) : enables (s.commit k r).host = enables s.host := by
  unfold State.commit
  dsimp only
  split
  · rfl
  · split
    · exact enables_restart _
    · exact enables_offerRequest _ ..

theorem enables_commitBytes (stored : List Byte) (declared : Byte) : enables (s.commitBytes stored declared).host = enables s.host := by
  unfold State.commitBytes
  split
  · rfl
  · exact enables_commit ..

theorem enables_requestByte (b : Byte) : enables (s.requestByte b).host = enables s.host := by
  unfold State.requestByte
  split
  · rfl
  · split
    · exact enables_commitBytes ..
    · rfl
  · dsimp only
    split
    · exact enables_commitBytes ..
    · rfl

theorem enables_readCompletion (first : Bool) : enables (s.readCompletion first).host = enables s.host := by
  unfold State.readCompletion
  split
  · rfl
  · unfold State.advanceRead
    split <;> rfl

end Notices

/-! ### Commands -/

theorem enables_effect {c : Instr} (hc : ∀ b y, c ≠ .intmaskWrite b y) (s : State) : enables (effect c s).host = enables s.host := by
  cases c with
  | intmaskWrite b y => exact absurd rfl (hc b y)
  | requestAssemblyByte b y => exact enables_requestByte s b
  | configure r | acquire r | release r | cancel r | query r | stats r | clearFault r | leave r | restart r =>
    exact enables_commit s _ r
  | completionRead first y => exact enables_readCompletion s first
  | probe b y => exact congrArg enables (probeWrite_host s)
  | framingDiscard c => exact congrArg enables (discardFraming_host s c)
  | formatDiscard l => exact congrArg enables (receiveBad_host s l)
  | claimReceipt | settleReceipt | releaseReceipt | rollReceipt | rosterReceipt | probeForward | ownClaimReturn | ownRollReturn
  | ownProbeReturn | ownFrameStripped => exact enables_receive s _
  | transmitChoice => exact congrArg enables (transmitChoice_host s)
  | claimTransmitted => exact enables_ownSent s _ reportClaim_host
  | settleTransmitted => exact enables_ownSent s _ reportSettle_host
  | releaseTransmitted => exact enables_ownSent s _ reportRelease_host
  | rollTransmitted | probeTransmitted => exact enables_ownSent s _ fun _ _ => rfl
  | rosterTransmitted => exact enables_ownSent s _ fun s _ => makeHeld_host s
  | heldOrigination => exact congrArg enables (makeHeld_host s)
  | linkUp => exact enables_reportUp s
  | linkDown => exact enables_reportDown s
  | circuitTimeout q => exact enables_circuitExpires s q
  | intentExpiry k x => exact congrArg enables (intentExpires_host s k x)
  | rollTimerExpiry => exact congrArg enables (rollTimerExpires_host s)
  | rollLost | abandonedRollExpiry => exact congrArg enables (rollAgesOut_host s _)
  | retiredRollExpiry => exact congrArg enables (retiredExpires_host s)
  | probeTimeout => exact congrArg enables (probeExpires_host s)
  | endOfLeaving => exact enables_testLeaving s
  | frameStart => exact congrArg enables (startFrame_host s)
  | _ => rfl

theorem enables_exec {c : Instr} (h : isPower c = false) (hc : ∀ b y, c ≠ .intmaskWrite b y) {s t : State} (ht : exec c s = .next t) :
    enables t.host = enables s.host := by
  rcases exec_outcome h ht with rfl | rfl | rfl | rfl
  · rfl
  · rfl
  · exact enables_effect hc s
  · exact enables_effect hc s

/-! ### The mask written and read (R195, R196, R208) -/

theorem intAsserted_iff {s : State} (hr : s.inReset = false) : s.intAsserted = true ↔
    (s.table.queue ≠ [] ∧ s.host.recordInt = true) ∨ (s.host.noticeLost = true ∧ s.host.noticeLostInt = true) := by
  simp only [State.intAsserted, hr, Bool.not_false, Bool.true_and, Bool.or_eq_true, Bool.and_eq_true, recordReady_iff]

theorem intmask_read {s : State} (hr : s.inReset = false) :
    portRead 3 s = (if s.host.recordInt then 1 else 0) + (if s.host.noticeLostInt then 2 else 0) := by
  have hread : portRead 3 s = s.intmaskByte := by rw [portRead, hr]; rfl
  rw [hread, State.intmaskByte]
  cases s.host.recordInt <;> cases s.host.noticeLostInt <;> rfl

/-- Settles O25: the write and what follows of it, the mask at reset, and the frame over every other command. -/
theorem interruptMaskHoldsTwoEnables : Obligations.InterruptMaskHoldsTwoEnables := by
  refine ⟨fun b y s hr hy => ?write, fun _ => ⟨rfl, rfl⟩, fun c s t ht hpower hc => ?frame⟩
  case write =>
    intro t
    have hrt : t.inReset = false := hr
    exact ⟨exec_intmaskWrite b y s hr (strobe_wf_of_taken hy), intAsserted_iff hrt, intmask_read hrt⟩
  case frame => exact Prod.mk.inj (enables_exec hpower hc ht)

end Sys2Proof.PortProofs

/-! ## The frame layouts and the format check (O52) -/

namespace Sys2Proof.LayoutProofs

/-! ### The small codings (R201 to R204): read back from their bytes, and written back from what is read -/

@[simp] theorem halfBytes_length (h : Half) : (halfBytes h).length = 2 := rfl

theorem halfBytes_eq_iff {h : Half} {hi lo : Byte} : halfBytes h = [hi, lo] ↔ halfOf hi lo = h := by
  simp only [halfBytes, halfOf, List.cons.injEq, and_true]
  bv_omega

theorem modeOf_eq_some_iff {b : Byte} {m : Mode} : modeOf b = some m ↔ b.toNat / 64 = modeCode m := by
  constructor
  · fun_cases modeOf b with
    | case1 hshared => rintro ⟨⟩; exact hshared
    | case2 _ hexclusive => rintro ⟨⟩; exact hexclusive
    | case3 => exact nofun
  · intro h
    cases m with
    | shared => exact if_pos h
    | exclusive => exact (if_neg (by rw [h]; decide)).trans (if_pos h)

theorem resourceModeByte_eq_iff {b : Byte} {k : Resource} {m : Mode} :
    resourceModeByte k m = b ↔ modeOf b = some m ∧ resourceOf b = k := by
  have hm : 1 ≤ modeCode m ∧ modeCode m ≤ 2 := by cases m <;> decide
  rw [modeOf_eq_some_iff, ← BitVec.toNat_inj, Fin.ext_iff]
  simp only [resourceModeByte, resourceOf, BitVec.toNat_ofNat, Fin.ofNat]
  omega

@[simp] theorem modeOf_resourceModeByte (k : Resource) (m : Mode) : modeOf (resourceModeByte k m) = some m :=
  (resourceModeByte_eq_iff.1 rfl).1

@[simp] theorem resourceOf_resourceModeByte (k : Resource) (m : Mode) : resourceOf (resourceModeByte k m) = k :=
  (resourceModeByte_eq_iff.1 rfl).2

theorem addrByte_eq_iff {b : Byte} {a : StationAddr} : addrByte a = b ↔ b.toNat < 16 ∧ Fin.ofNat 16 b.toNat = a := by
  rw [← BitVec.toNat_inj, Fin.ext_iff]
  simp only [addrByte, BitVec.toNat_ofNat, Fin.ofNat]
  omega

theorem objectionByte_eq_iff {b : Byte} {o : Option StationAddr} : objectionByte o = b ↔ objectionOf b = some o := by
  constructor
  · rintro rfl
    cases o with
    | none => rfl
    | some a => revert a; decide
  · fun_cases objectionOf b with
    | case1 hnone => rintro ⟨⟩; exact hnone.symm
    | case2 _ haddr => rintro ⟨⟩; exact addrByte_eq_iff.2 ⟨haddr, rfl⟩
    | case3 => exact nofun

@[simp] theorem objectionOf_objectionByte (o : Option StationAddr) : objectionOf (objectionByte o) = some o :=
  objectionByte_eq_iff.1 rfl

theorem outcomeByte_eq_iff {b : Byte} {c : SettleOutcome} : outcomeByte c = b ↔ outcomeOf b = some c := by
  constructor
  · rintro rfl
    cases c <;> rfl
  · fun_cases outcomeOf b with
    | case1 hgranted => rintro ⟨⟩; exact hgranted.symm
    | case2 _ hrefused => rintro ⟨⟩; exact hrefused.symm
    | case3 _ _ hwithdrawn => rintro ⟨⟩; exact hwithdrawn.symm
    | case4 => exact nofun

@[simp] theorem outcomeOf_outcomeByte (c : SettleOutcome) : outcomeOf (outcomeByte c) = some c :=
  outcomeByte_eq_iff.1 rfl

/-- A count that fits a byte is read back from it. -/
theorem countByte_toNat {n : Nat} (hn : n < 256) : (BitVec.ofNat 8 n).toNat = n := by
  rw [BitVec.toNat_ofNat, Nat.mod_eq_of_lt hn]

/-! ### A ROLL's entries (R203, R204) -/

theorem flatMap_pendingBytes_length (ps : List (Byte × Byte)) : (ps.flatMap pendingBytes).length = 2 * ps.length := by
  induction ps with
  | nil => rfl
  | cons p ps ih =>
    rw [List.flatMap_cons, List.length_append, ih, List.length_cons, Nat.mul_succ, Nat.add_comm]
    rfl

theorem pairsOf_flatMap (ps : List (Byte × Byte)) : pairsOf (ps.flatMap pendingBytes) = ps := by
  induction ps with
  | nil => rfl
  | cons p ps ih => simp [pendingBytes, pairsOf, ih]

theorem flatMap_pairsOf {n : Nat} {bytes : List Byte} (h : bytes.length = 2 * n) :
    (pairsOf bytes).flatMap pendingBytes = bytes ∧ (pairsOf bytes).length = n := by
  induction n generalizing bytes with
  | zero => simp [List.length_eq_zero_iff.1 h, pairsOf]
  | succ n ih =>
    match bytes with
    | a :: b :: rest =>
      obtain ⟨hbytes, hlength⟩ := ih (bytes := rest) (by simp at h; omega)
      simp [pairsOf, pendingBytes, hbytes, hlength]

theorem entry_wf_iff (e : RollEntry) : e.wf = true ↔ e.pendings.length ≤ 4 ∧ e.holds.length + e.pendings.length ≤ 16 := by
  simp [RollEntry.wf]

/-- What the walk does with the bytes of one entry in front of others. -/
theorem parseEntries_entry {e : RollEntry} (he : e.wf = true) (n : Nat) (rest : List Byte) :
    parseEntries (n + 1) (e.bytes ++ rest) = (parseEntries n rest).map (e :: ·) := by
  obtain ⟨hp, hhp⟩ := (entry_wf_iff e).1 he
  have hcounts : (BitVec.ofNat 8 (e.holds.length + 32 * e.pendings.length)).toNat = e.holds.length + 32 * e.pendings.length :=
    countByte_toNat (by omega)
  have hmod : (e.holds.length + 32 * e.pendings.length) % 32 = e.holds.length := by omega
  have hdiv : (e.holds.length + 32 * e.pendings.length) / 32 = e.pendings.length := by omega
  have hlen := flatMap_pendingBytes_length e.pendings
  simp only [RollEntry.bytes, List.cons_append, parseEntries, hcounts, hmod, hdiv]
  rw [if_pos ⟨hp, hhp, by simp [hlen]⟩]
  simp [← hlen, ← List.drop_drop, pairsOf_flatMap]

theorem parseEntries_succ {n : Nat} {bytes : List Byte} {es : List RollEntry} (h : parseEntries (n + 1) bytes = some es) :
    ∃ e rest es', bytes = e.bytes ++ rest ∧ e.wf = true ∧ parseEntries n rest = some es' ∧ es = e :: es' := by
  match bytes with
  | addr :: counts :: items =>
    simp only [parseEntries] at h
    split at h
    case isFalse => cases h
    case isTrue hlimits =>
      obtain ⟨es', hes', rfl⟩ := Option.map_eq_some_iff.1 h
      obtain ⟨hp, hhp, hfit⟩ := hlimits
      obtain ⟨hpairs, hcount⟩ := flatMap_pairsOf (n := counts.toNat / 32)
        (bytes := (items.drop (counts.toNat % 32)).take (2 * (counts.toNat / 32))) (by simp; omega)
      have hholds : (items.take (counts.toNat % 32)).length = counts.toNat % 32 := by simp; omega
      refine ⟨_, _, es', ?bytes, ?wf, hes', rfl⟩
      case bytes =>
        simp only [RollEntry.bytes, hpairs, hcount, hholds, List.cons_append, List.append_assoc, Nat.mod_add_div,
          BitVec.ofNat_toNat, BitVec.setWidth_eq, ← List.drop_drop, List.take_append_drop]
      case wf =>
        simp only [entry_wf_iff, hcount, hholds]
        exact ⟨hp, hhp⟩

theorem parseEntries_eq_some_iff {n : Nat} {bytes : List Byte} {es : List RollEntry} :
    parseEntries n bytes = some es ↔ es.length = n ∧ es.all RollEntry.wf = true ∧ es.flatMap RollEntry.bytes = bytes := by
  constructor
  · intro h
    induction n generalizing bytes es with
    | zero => cases bytes <;> simp_all [parseEntries]
    | succ n ih =>
      obtain ⟨e, rest, es', rfl, he, hes', rfl⟩ := parseEntries_succ h
      obtain ⟨hlength, hwf, rfl⟩ := ih hes'
      simp [hlength, he, hwf]
  · rintro ⟨rfl, hwf, rfl⟩
    induction es with
    | nil => rfl
    | cons e es ih =>
      obtain ⟨he, hes⟩ := Bool.and_eq_true_iff.1 hwf
      rw [List.flatMap_cons, List.length_cons, parseEntries_entry he, ih hes, Option.map_some]

/-! ### The bodies (R203, R204) -/

theorem roll_wf_iff (b : RollBody) :
    b.wf = true ↔ 1 ≤ b.entries.length ∧ b.entries.length ≤ 16 ∧ b.entries.all RollEntry.wf = true := by
  rw [RollBody.wf, Bool.and_eq_true, Bool.and_eq_true, decide_eq_true_iff, decide_eq_true_iff, and_assoc]
  rfl

theorem roster_wf_iff (b : RosterBody) : b.wf = true ↔ 1 ≤ b.stations.length ∧ b.stations.length ≤ 16 := by
  simp [RosterBody.wf]

theorem parseBody_bytes {b : Body} (hb : b.wf = true) : parseBody b.kindByte b.bytes = some b := by
  cases b with
  | claim c => simp [parseBody, Body.kindByte, Body.bytes]
  | settle c => simp [parseBody, Body.kindByte, Body.bytes]
  | release c =>
    have hnote : c.note.length ≤ 32 := of_decide_eq_true hb
    have hlength : (BitVec.ofNat 8 c.note.length).toNat = c.note.length := countByte_toNat (by omega)
    simp [parseBody, Body.kindByte, Body.bytes, hlength, hnote]
  | roll c =>
    obtain ⟨hmin, hmax, hentries⟩ := (roll_wf_iff c).1 hb
    have hcount : (BitVec.ofNat 8 c.entries.length).toNat = c.entries.length := countByte_toNat (by omega)
    have hread := parseEntries_eq_some_iff.2 ⟨rfl, hentries, rfl⟩
    have hstamp : halfOf _ _ = c.stamp := halfBytes_eq_iff.1 rfl
    simp [parseBody, Body.kindByte, Body.bytes, halfBytes, hstamp, hcount, hmin, hmax, hread, -BitVec.ofNat_toNat]
  | roster c =>
    obtain ⟨hmin, hmax⟩ := (roster_wf_iff c).1 hb
    have hcount : (BitVec.ofNat 8 c.stations.length).toNat = c.stations.length := countByte_toNat (by omega)
    simp [parseBody, Body.kindByte, Body.bytes, hcount, hmin, hmax]
  | probe q => rfl

/-- The cases are the branches of the format check in which a body is read: CLAIM, SETTLE, RELEASE, ROLL, ROSTER and PROBE. Every
other branch answers none. -/
theorem bytes_of_parseBody {kind : Byte} {payload : List Byte} {b : Body} (h : parseBody kind payload = some b) :
    b.kindByte = kind ∧ b.bytes = payload ∧ b.wf = true := by
  revert h
  fun_cases parseBody kind payload with
  | case1 hkind rm q p o m ob hob hmode =>
    rintro ⟨⟩
    simp [hkind, Body.kindByte, Body.bytes, resourceModeByte_eq_iff.2 ⟨hmode, rfl⟩, objectionByte_eq_iff.2 hob, Body.wf]
  | case4 _ hkind rm q o m oc hoc hmode =>
    rintro ⟨⟩
    simp [hkind, Body.kindByte, Body.bytes, resourceModeByte_eq_iff.2 ⟨hmode, rfl⟩, outcomeByte_eq_iff.2 hoc, Body.wf]
  | case7 _ _ hkind rm n note m hmode hnote =>
    rintro ⟨⟩
    obtain ⟨hmax, hlength⟩ := hnote
    simp [hkind, Body.kindByte, Body.bytes, resourceModeByte_eq_iff.2 ⟨hmode, rfl⟩, hlength, hmax, Body.wf, ReleaseBody.wf]
  | case11 _ _ _ hkind q hi lo e rest he =>
    intro h
    obtain ⟨hmin, hmax⟩ := he
    obtain ⟨es, hes, rfl⟩ := Option.map_eq_some_iff.1 h
    obtain ⟨hcount, hwf, rfl⟩ := parseEntries_eq_some_iff.1 hes
    refine ⟨hkind.symm, ?_, (roll_wf_iff _).2 ⟨hcount ▸ hmin, hcount ▸ hmax, hwf⟩⟩
    simp [Body.bytes, halfBytes_eq_iff.2 rfl, hcount]
  | case14 _ _ _ _ hkind q c stations hc =>
    rintro ⟨⟩
    obtain ⟨hmin, hmax, hcount⟩ := hc
    refine ⟨hkind.symm, ?_, (roster_wf_iff _).2 ⟨hcount ▸ hmin, hcount ▸ hmax⟩⟩
    simp [Body.bytes, hcount]
  | case17 _ _ _ _ _ hkind q =>
    rintro ⟨⟩
    exact ⟨hkind.symm, rfl, rfl⟩
  | _ => exact nofun

theorem parseBody_eq_some_iff {kind : Byte} {payload : List Byte} {b : Body} :
    parseBody kind payload = some b ↔ b.kindByte = kind ∧ b.bytes = payload ∧ b.wf = true :=
  ⟨bytes_of_parseBody, fun ⟨hkind, hbytes, hb⟩ => hkind ▸ hbytes ▸ parseBody_bytes hb⟩

/-! ### The frame (R202, R205) -/

theorem parseContent_eq_some_iff {content : List Byte} {f : Frame} :
    parseContent content = some f ↔ f.content = content ∧ f.wf = true := by
  match content with
  | [] | [_] | [_, _] => simp [parseContent, Frame.content]
  | kind :: origin :: hop :: payload =>
    have hcontent : f.content = kind :: origin :: hop :: payload ↔
        f.body.kindByte = kind ∧ addrByte f.origin = origin ∧ f.hop = hop ∧ f.body.bytes = payload := by simp [Frame.content]
    rw [hcontent, addrByte_eq_iff, parseContent]
    split
    case isTrue horigin =>
      rw [Option.map_eq_some_iff]
      constructor
      · rintro ⟨b, hb, rfl⟩
        obtain ⟨hkind, hbytes, hwf⟩ := parseBody_eq_some_iff.1 hb
        exact ⟨⟨hkind, ⟨horigin, rfl⟩, rfl, hbytes⟩, hwf⟩
      · rintro ⟨⟨hkind, ⟨-, haddr⟩, rfl, hbytes⟩, hwf⟩
        exact ⟨f.body, parseBody_eq_some_iff.2 ⟨hkind, hbytes, hwf⟩, by rw [haddr]⟩
    case isFalse horigin => exact iff_of_false nofun fun ⟨⟨_, ⟨haddr, _⟩, _⟩, _⟩ => horigin haddr

theorem body_bytes_length_pos (b : Body) : 0 < b.bytes.length := by
  cases b <;> exact Nat.succ_pos _

theorem frame_bytes_length (f : Frame) : f.bytes.length = f.length := by
  simp only [Frame.bytes, Frame.content, Frame.length, List.length_append, List.length_cons, halfBytes_length]
  omega

theorem parseFrame_sealed {content : List Byte} (h : 4 ≤ content.length) :
    parseFrame (content ++ halfBytes (crc16 content)) = parseContent content := by
  have hlength : ¬ content.length + 2 < 6 := by omega
  simp [parseFrame, hlength]

theorem parseFrame_eq_some_iff {bytes : List Byte} {f : Frame} : parseFrame bytes = some f ↔ f.bytes = bytes ∧ f.wf = true := by
  constructor
  · fun_cases parseFrame bytes with
    | case2 _ hcrc =>
      intro h
      obtain ⟨hcontent, hwf⟩ := parseContent_eq_some_iff.1 h
      exact ⟨by rw [Frame.bytes, hcontent, ← hcrc, List.take_append_drop], hwf⟩
    | case1 | case3 => exact nofun
  · rintro ⟨rfl, hwf⟩
    have hbody := body_bytes_length_pos f.body
    rw [Frame.bytes, parseFrame_sealed (by simp only [Frame.content, List.length_cons]; omega)]
    exact parseContent_eq_some_iff.2 ⟨rfl, hwf⟩

/-- Settles O52: the format check answers a frame exactly when the bytes are those of that frame and its counts keep their limits. -/
theorem framesReadBackFromTheirBytes : Obligations.FramesReadBackFromTheirBytes :=
  ⟨fun f hf => ⟨parseFrame_eq_some_iff.2 ⟨rfl, hf⟩, frame_bytes_length f⟩, fun _ _ => parseFrame_eq_some_iff.1⟩

end Sys2Proof.LayoutProofs

/-! ## The front command (O1) -/

namespace Sys2Proof.StationProofs
open Sys2Proof.Machine

/-- Settles O1: a queue with a front command takes the other branch of `step` than the empty queue of `step_idle`. -/
theorem stepRunsFrontCommand : Obligations.StepRunsFrontCommand := by
  intro c rest s hfront
  unfold step
  rw [hfront]

end Sys2Proof.StationProofs

/-! ## The Outbound Queue and its makers (O57) -/

namespace Sys2Proof.OutboundProofs
open Sys2Proof.Machine Sys2Proof.Statement Sys2Proof.LeaseProofs Sys2Proof.RequestProofs Sys2Proof.RollProofs Sys2Proof.StationProofs

/-! ### The frames of the slots (R78, R169) -/

/-- No waiting frame, no claim and no place in the posting order belongs to the slot. -/
structure Loose (i : SlotIx) (out : List OwnFrame) (claims : List ClaimEntry) (posting : List SlotIx) : Prop where
  frames  : ∀ f ∈ out, f.owner ≠ some i
  claims  : ∀ e ∈ claims, e.slot ≠ i
  posting : i ∉ posting

/-- What `outboundLawful` asks of the frames of slots, the claims, the phases of the slots and the slots to post. -/
structure SlotLaw (out : List OwnFrame) (claims : List ClaimEntry) (phase : SlotIx → Option SlotPhase) (posting : List SlotIx) :
    Prop where
  owners   : (out.filterMap OwnFrame.owner).Nodup
  unowned  : ∀ f ∈ out, f.owner = none → f.slotPhase = none
  owned    : ∀ f ∈ out, ∀ i, f.owner = some i → f.slotPhase ≠ none ∧ phase i = f.slotPhase
  claimed  : ∀ f ∈ out, ∀ b, f.frame.body = .claim b → ∃ e ∈ claims, f.owner = some e.slot ∧ e.ownsFrame b = true
  slots    : (claims.map ClaimEntry.slot).Nodup
  claiming : ∀ e ∈ claims, phase e.slot = some .claiming
  once     : posting.Nodup
  posting  : ∀ i ∈ posting, phase i = some .posting

section SlotLaw
variable {out : List OwnFrame} {claims : List ClaimEntry} {phase phase' : SlotIx → Option SlotPhase} {posting : List SlotIx}
  {i : SlotIx}

/-- A slot waits for no frame, no claim and no place in the posting order in WAITING, or when it is free. -/
theorem SlotLaw.loose_of_phase (h : SlotLaw out claims phase posting)
    (hp : ∀ p, phase i = some p → p = .waiting) : Loose i out claims posting where
  frames f hf ho := by
    obtain ⟨hn, hi⟩ := h.owned f hf i ho
    cases hb : f.frame.body <;> simp_all [OwnFrame.slotPhase]
  claims e he hi := by
    have := h.claiming e he
    rw [hi] at this
    exact nomatch hp _ this
  posting hi := nomatch hp _ (h.posting i hi)

/-- A loose slot changes its phase. -/
theorem SlotLaw.update (h : SlotLaw out claims phase posting) (hl : Loose i out claims posting)
    (hph : ∀ j, j ≠ i → phase' j = phase j) : SlotLaw out claims phase' posting where
  owners := h.owners
  unowned := h.unowned
  owned f hf j hj := by
    rw [hph j (fun e => hl.frames f hf (e ▸ hj))]
    exact h.owned f hf j hj
  claimed := h.claimed
  slots := h.slots
  claiming e he := (hph _ (hl.claims e he)).trans (h.claiming e he)
  once := h.once
  posting j hj := (hph j (fun e => hl.posting (e ▸ hj))).trans (h.posting j hj)

/-- A slot in POSTING takes its place in the posting order. -/
theorem SlotLaw.enterPosting (h : SlotLaw out claims phase posting) (hi : i ∉ posting) (hp : phase i = some .posting) :
    SlotLaw out claims phase (posting ++ [i]) where
  owners := h.owners
  unowned := h.unowned
  owned := h.owned
  claimed := h.claimed
  slots := h.slots
  claiming := h.claiming
  once := by grind [h.once]
  posting j hj := by
    rcases List.mem_append.1 hj with hj | hj
    · exact h.posting j hj
    · rw [List.mem_singleton.1 hj, hp]

/-- The first slot to post leaves the posting order. -/
theorem SlotLaw.leavePosting (h : SlotLaw out claims phase (i :: posting)) :
    SlotLaw out claims phase posting ∧ Loose i out claims posting where
  left := { h with once := h.once.of_cons, posting := fun j hj => h.posting j (List.mem_cons_of_mem _ hj) }
  right := by
    have hp := h.posting i List.mem_cons_self
    refine ⟨fun f hf ho => ?_, fun e he hi => ?_, (List.nodup_cons.1 h.once).1⟩
    · obtain ⟨-, hi⟩ := h.owned f hf i ho
      rw [hp] at hi
      cases hb : f.frame.body <;> simp [OwnFrame.slotPhase, hb] at hi
    · have := h.claiming e he
      rw [hi, hp] at this
      nomatch this

/-- A frame of a loose slot joins the queue, its slot in the phase for it, and a CLAIM with its claim in the list. -/
theorem SlotLaw.enqueue (h : SlotLaw out claims phase posting) (hl : ∀ f ∈ out, f.owner ≠ some i) {f : OwnFrame} (ho : f.owner = some i)
    (hf : f.slotPhase ≠ none) (hp : phase i = f.slotPhase)
    (hc : ∀ b, f.frame.body = .claim b → ∃ e ∈ claims, f.owner = some e.slot ∧ e.ownsFrame b = true) :
    SlotLaw (out ++ [f]) claims phase posting where
  owners := by
    have : i ∉ out.filterMap OwnFrame.owner := by
      simp only [List.mem_filterMap, not_exists, not_and]
      exact hl
    simp only [List.filterMap_append, List.filterMap_cons, ho, List.filterMap_nil]
    exact List.nodup_append.2 ⟨h.owners, by simp, by grind⟩
  unowned g hg hn := by
    rcases List.mem_append.1 hg with hg | hg
    · exact h.unowned g hg hn
    · rw [List.mem_singleton.1 hg, ho] at hn
      nomatch hn
  owned g hg j hj := by
    rcases List.mem_append.1 hg with hg | hg
    · exact h.owned g hg j hj
    · rw [List.mem_singleton.1 hg] at hj ⊢
      rw [← Option.some.inj (ho.symm.trans hj)]
      exact ⟨hf, hp⟩
  claimed g hg b hb := by
    rcases List.mem_append.1 hg with hg | hg
    · exact h.claimed g hg b hb
    · rw [List.mem_singleton.1 hg] at hb ⊢
      exact hc b hb
  slots := h.slots
  claiming := h.claiming
  once := h.once
  posting := h.posting

/-- A frame of no slot joins the queue. -/
theorem SlotLaw.enqueueUnowned (h : SlotLaw out claims phase posting) {f : OwnFrame} (ho : f.owner = none) (hf : f.slotPhase = none) :
    SlotLaw (out ++ [f]) claims phase posting where
  owners := by simpa [List.filterMap_append, ho] using h.owners
  unowned g hg hn := by
    rcases List.mem_append.1 hg with hg | hg
    · exact h.unowned g hg hn
    · rw [List.mem_singleton.1 hg, hf]
  owned g hg j hj := by
    rcases List.mem_append.1 hg with hg | hg
    · exact h.owned g hg j hj
    · rw [List.mem_singleton.1 hg, ho] at hj
      nomatch hj
  claimed g hg b hb := by
    rcases List.mem_append.1 hg with hg | hg
    · exact h.claimed g hg b hb
    · rw [List.mem_singleton.1 hg] at hb
      simp [OwnFrame.slotPhase, hb] at hf
  slots := h.slots
  claiming := h.claiming
  once := h.once
  posting := h.posting

/-- A loose slot in CLAIMING takes a claim. -/
theorem SlotLaw.addClaim (h : SlotLaw out claims phase posting) {e : ClaimEntry} (hl : ∀ d ∈ claims, d.slot ≠ e.slot)
    (hp : phase e.slot = some .claiming) : SlotLaw out (claims ++ [e]) phase posting where
  owners := h.owners
  unowned := h.unowned
  owned := h.owned
  claimed f hf b hb := by
    obtain ⟨d, hd, hrest⟩ := h.claimed f hf b hb
    exact ⟨d, List.mem_append_left _ hd, hrest⟩
  slots := by
    rw [List.map_append]
    refine List.nodup_append.2 ⟨h.slots, by simp, ?_⟩
    rintro a ha b hb rfl
    obtain ⟨d, hd, rfl⟩ := List.mem_map.1 ha
    exact hl d hd (by simpa using hb)
  claiming d hd := by
    rcases List.mem_append.1 hd with hd | hd
    · exact h.claiming d hd
    · rw [List.mem_singleton.1 hd, hp]
  once := h.once
  posting := h.posting

/-- Fewer frames wait. -/
theorem SlotLaw.sublist (h : SlotLaw out claims phase posting) {out' : List OwnFrame} (hs : out'.Sublist out) :
    SlotLaw out' claims phase posting where
  owners := h.owners.sublist (hs.filterMap _)
  unowned f hf := h.unowned f (hs.subset hf)
  owned f hf := h.owned f (hs.subset hf)
  claimed f hf := h.claimed f (hs.subset hf)
  slots := h.slots
  claiming := h.claiming
  once := h.once
  posting := h.posting

/-- A sent SETTLE or RELEASE leaves its slot loose. -/
theorem SlotLaw.loose_of_sent {f : OwnFrame} (h : SlotLaw (f :: out) claims phase posting) (ho : f.owner = some i)
    (hf : f.slotPhase ≠ some .claiming) : Loose i out claims posting := by
  obtain ⟨hn, hp⟩ := h.owned f List.mem_cons_self i ho
  refine ⟨fun g hg hgo => ?_, fun e he hi => ?_, fun hi => ?_⟩
  · have := h.owners
    rw [List.filterMap_cons_some ho] at this
    exact (List.nodup_cons.1 this).1 (List.mem_filterMap.2 ⟨g, hg, hgo⟩)
  · have := h.claiming e he
    rw [hi, hp] at this
    exact hf this
  · have := h.posting i hi
    rw [hp] at this
    cases hb : f.frame.body <;> simp [OwnFrame.slotPhase, hb] at this

/-- Claims change, and each keeps its slot and the frame that belongs to it. -/
theorem SlotLaw.mapClaims (h : SlotLaw out claims phase posting) {g : ClaimEntry → ClaimEntry} (hs : ∀ e, (g e).slot = e.slot)
    (hg : ∀ f ∈ out, ∀ b, f.frame.body = .claim b → ∀ e ∈ claims, f.owner = some e.slot → e.ownsFrame b = true →
      (g e).ownsFrame b = true) : SlotLaw out (claims.map g) phase posting where
  owners := h.owners
  unowned := h.unowned
  owned := h.owned
  claimed f hf b hb := by
    obtain ⟨e, he, ho, hown⟩ := h.claimed f hf b hb
    exact ⟨g e, List.mem_map_of_mem he, by rw [hs, ho], hg f hf b hb e he ho hown⟩
  slots := by
    rw [List.map_map, show ClaimEntry.slot ∘ g = ClaimEntry.slot from funext hs]
    exact h.slots
  claiming d hd := by
    obtain ⟨e, he, rfl⟩ := List.mem_map.1 hd
    rw [hs]
    exact h.claiming e he
  once := h.once
  posting := h.posting

/-- A CIRCULATING claim, the first that a test names, leaves the list, and its slot is loose: its CLAIM has been sent. -/
theorem SlotLaw.unclaim (h : SlotLaw out claims phase posting) {p : ClaimEntry → Bool} {e : ClaimEntry} (he : claims.find? p = some e)
    (hc : e.phase = .circulating) :
    SlotLaw out (claims.eraseP p) phase posting ∧ Loose e.slot out (claims.eraseP p) posting := by
  have hmem := List.mem_of_find?_eq_some he
  have hphase := h.claiming e hmem
  rw [eraseP_of_find? he]
  have hunique : ∀ d ∈ claims, d.slot = e.slot → d = e := fun d hd hde => eq_of_nodup_map h.slots hd hmem hde
  have hqueued : ∀ b, e.ownsFrame b = false := fun b => by simp [ClaimEntry.ownsFrame, hc]
  refine ⟨?_, fun f hf ho => ?_, fun d hd hde => ?_, fun hi => ?_⟩
  · refine { h with claimed := fun f hf b hb => ?_, slots := ?_, claiming := fun d hd => h.claiming d (List.mem_of_mem_erase hd) }
    · obtain ⟨d, hd, ho, hown⟩ := h.claimed f hf b hb
      refine ⟨d, (List.mem_erase_of_ne ?_).2 hd, ho, hown⟩
      rintro rfl
      rw [hqueued] at hown
      nomatch hown
    · exact h.slots.sublist (List.erase_sublist.map _)
  · obtain ⟨-, hp⟩ := h.owned f hf _ ho
    rw [hphase] at hp
    cases hb : f.frame.body with
    | claim b =>
      obtain ⟨d, hd, hod, hown⟩ := h.claimed f hf b hb
      have hde : d = e := hunique d hd (Option.some.inj (hod.symm.trans ho))
      rw [hde, hqueued] at hown
      nomatch hown
    | _ => simp [OwnFrame.slotPhase, hb] at hp
  · have := hunique d (List.mem_of_mem_erase hd) hde
    subst this
    have hn : claims.Nodup := h.slots.of_map _
    exact (List.Nodup.not_mem_erase hn) hd
  · have := h.posting _ hi
    rw [hphase] at this
    nomatch this

end SlotLaw

/-! ### The frames of the Roll Unit (R111, R116) -/

/-- A ROLL waits in the queue. -/
def rollIn (out : List OwnFrame) : Bool := out.any (fun f => f.frame.body.isRoll)

/-- A ROSTER waits in the queue. -/
def rosterIn (out : List OwnFrame) : Bool := out.any (fun f => f.frame.body.isRoster)

/-- What `outboundLawful` asks of the ROLL and the ROSTER of this station. -/
structure RollLaw (out : List OwnFrame) (r : RollUnit) : Prop where
  one   : (out.filter OwnFrame.isOfRollUnit).length ≤ 1
  waits : rollIn out = r.inPhase .queued
  clear : rosterIn out = true ∨ r.held = true → r.outstanding = none

theorem inPhase_of_none {r : RollUnit} (h : r.outstanding = none) (p : RollPhase) : r.inPhase p = false := by
  simp [RollUnit.inPhase, h]

/-- A frame of a slot or a PROBE is none of the Roll Unit's. -/
theorem isOfRollUnit_eq_false_iff (f : OwnFrame) :
    f.isOfRollUnit = false ↔ f.frame.body.isRoll = false ∧ f.frame.body.isRoster = false := by
  simp [OwnFrame.isOfRollUnit]

theorem filter_isOfRollUnit_eq_nil_iff (out : List OwnFrame) :
    out.filter OwnFrame.isOfRollUnit = [] ↔ rollIn out = false ∧ rosterIn out = false := by
  simp only [List.filter_eq_nil_iff, rollIn, rosterIn, List.any_eq_false, Bool.not_eq_true, isOfRollUnit_eq_false_iff]
  exact forall₂_and

section RollLaw
variable {out : List OwnFrame} {r r' : RollUnit}

theorem rollIn_append (out : List OwnFrame) (f : OwnFrame) : rollIn (out ++ [f]) = (rollIn out || f.frame.body.isRoll) := by simp [rollIn]

theorem rosterIn_append (out : List OwnFrame) (f : OwnFrame) : rosterIn (out ++ [f]) = (rosterIn out || f.frame.body.isRoster) := by
  simp [rosterIn]

/-- The law reads the outstanding roll's phase, whether there is one, and whether an origination is held. -/
theorem RollLaw.congr (h : RollLaw out r) (hq : r'.inPhase .queued = r.inPhase .queued)
    (hn : rosterIn out = true ∨ r'.held = true → r'.outstanding = none) : RollLaw out r' where
  one := h.one
  waits := h.waits.trans hq.symm
  clear := hn

/-- A frame that is none of the Roll Unit's joins the queue. -/
theorem RollLaw.enqueue (h : RollLaw out r) {f : OwnFrame} (hf : f.isOfRollUnit = false) : RollLaw (out ++ [f]) r where
  one := by simpa [List.filter_append, hf] using h.one
  waits := by simpa [rollIn_append, ((isOfRollUnit_eq_false_iff f).1 hf).1] using h.waits
  clear := by simpa [rosterIn_append, ((isOfRollUnit_eq_false_iff f).1 hf).2] using h.clear

/-- A frame that is none of the Roll Unit's leaves the queue. -/
theorem RollLaw.dequeue {f : OwnFrame} (h : RollLaw (f :: out) r) (hf : f.frame.body.isRoll = false) : RollLaw out r where
  one := by
    have h1 := h.one
    rw [List.filter_cons] at h1
    split at h1
    · exact Nat.le_of_succ_le h1
    · exact h1
  waits := by simpa [rollIn, hf] using h.waits
  clear := fun hh => h.clear (hh.imp_left (fun hr => by simp only [rosterIn, List.any_cons] at *; simp [hr]))

/-- With no QUEUED roll and no ROSTER waiting, the queue holds no frame of the Roll Unit. -/
theorem RollLaw.filter_eq_nil (h : RollLaw out r) (hq : r.inPhase .queued = false) (hr : rosterIn out = false) :
    out.filter OwnFrame.isOfRollUnit = [] := (filter_isOfRollUnit_eq_nil_iff out).2 ⟨h.waits.trans hq, hr⟩

/-- While a roll is outstanding no ROSTER waits. -/
theorem RollLaw.rosterIn_eq_false (h : RollLaw out r) (ho : r.outstanding ≠ none) : rosterIn out = false := by
  cases hr : rosterIn out with
  | false => rfl
  | true => exact absurd (h.clear (.inl hr)) ho

/-- A ROLL joins a queue without frames of the Roll Unit, its roll QUEUED. -/
theorem rollLaw_of_roll {f : OwnFrame} (h : out.filter OwnFrame.isOfRollUnit = []) (hf : f.frame.body.isRoll = true)
    (hq : r'.inPhase .queued = true) (hh : r'.held = false) : RollLaw (out ++ [f]) r' where
  one := by simp only [List.filter_append, h]; exact List.length_filter_le ..
  waits := by rw [rollIn_append, hf, hq, Bool.or_true]
  clear := by
    have hr : f.frame.body.isRoster = false := by cases hb : f.frame.body <;> simp_all [Body.isRoll, Body.isRoster]
    rw [rosterIn_append, hr, ((filter_isOfRollUnit_eq_nil_iff out).1 h).2, hh]
    simp

/-- A ROSTER joins a queue without frames of the Roll Unit, with no roll outstanding. -/
theorem rollLaw_of_roster {f : OwnFrame} (h : out.filter OwnFrame.isOfRollUnit = []) (hf : f.frame.body.isRoll = false)
    (hn : r'.outstanding = none) : RollLaw (out ++ [f]) r' where
  one := by simp only [List.filter_append, h]; exact List.length_filter_le ..
  waits := by rw [rollIn_append, hf, ((filter_isOfRollUnit_eq_nil_iff out).1 h).1, inPhase_of_none hn]; rfl
  clear _ := hn

/-- The queue holds no frame of the Roll Unit, and no roll is QUEUED. -/
theorem rollLaw_of_filter_eq_nil (h : out.filter OwnFrame.isOfRollUnit = []) (hq : r'.inPhase .queued = false)
    (hh : r'.held = true → r'.outstanding = none) : RollLaw out r' where
  one := by simp [h]
  waits := by rw [((filter_isOfRollUnit_eq_nil_iff out).1 h).1, hq]
  clear := by rw [((filter_isOfRollUnit_eq_nil_iff out).1 h).2]; simpa using hh

end RollLaw

/-! ### The frame of the probe unit (R179) -/

/-- What `outboundLawful` asks of the PROBE of this station. -/
structure ProbeLaw (out : List OwnFrame) (phase : ProbePhase) : Prop where
  one   : (out.filter OwnFrame.isProbe).length ≤ 1
  waits : out.any OwnFrame.isProbe = decide (phase = .queued)

section ProbeLaw
variable {out : List OwnFrame} {phase : ProbePhase}

/-- A frame that is no PROBE joins the queue. -/
theorem ProbeLaw.enqueue (h : ProbeLaw out phase) {f : OwnFrame} (hf : f.isProbe = false) : ProbeLaw (out ++ [f]) phase where
  one := by simpa [List.filter_append, hf] using h.one
  waits := by simpa [hf] using h.waits

/-- A frame that is no PROBE leaves the queue. -/
theorem ProbeLaw.dequeue {f : OwnFrame} (h : ProbeLaw (f :: out) phase) (hf : f.isProbe = false) : ProbeLaw out phase where
  one := by simpa [hf] using h.one
  waits := by simpa [hf] using h.waits

/-- While the unit is not QUEUED no PROBE waits. -/
theorem ProbeLaw.filter_eq_nil (h : ProbeLaw out phase) (hp : phase ≠ .queued) : out.filter OwnFrame.isProbe = [] := by
  have := h.waits
  rw [decide_eq_false hp, List.any_eq_false] at this
  exact List.filter_eq_nil_iff.2 this

/-- No PROBE waits, and the unit is not QUEUED. -/
theorem probeLaw_of_filter_eq_nil (h : out.filter OwnFrame.isProbe = []) (hp : phase ≠ .queued) : ProbeLaw out phase where
  one := by simp [h]
  waits := by
    rw [decide_eq_false hp, List.any_eq_false]
    exact List.filter_eq_nil_iff.1 h

/-- A PROBE joins a queue without one. -/
theorem probeLaw_of_probe {f : OwnFrame} (h : out.filter OwnFrame.isProbe = []) (hf : f.isProbe = true) :
    ProbeLaw (out ++ [f]) .queued where
  one := by simp only [List.filter_append, h]; exact List.length_filter_le ..
  waits := by simp [hf]

/-- The PROBE leaves the queue. -/
theorem ProbeLaw.tail_filter_eq_nil {f : OwnFrame} (h : ProbeLaw (f :: out) phase) (hf : f.isProbe = true) :
    out.filter OwnFrame.isProbe = [] := by
  have := h.one
  rw [List.filter_cons, if_pos hf] at this
  exact List.length_eq_zero_iff.1 (Nat.le_zero.1 (Nat.le_of_succ_le_succ this))

end ProbeLaw

/-! ### The whole law -/

/-- The phase of each slot of a table. -/
def phases (t : RequestTable) (i : SlotIx) : Option SlotPhase := (t.slot i).map Slot.phase

/-- `outboundLawful` in its three parts. -/
structure InStep (s : State) : Prop where
  slots : SlotLaw s.outbound s.claim.claims (phases s.table) s.table.posting
  roll  : RollLaw s.outbound s.roll
  probe : ProbeLaw s.outbound s.probe.phase

theorem inItsPhase_iff (s : State) (f : OwnFrame) : s.inItsPhase f = true ↔
    (f.owner = none → f.slotPhase = none) ∧ ∀ i, f.owner = some i → f.slotPhase ≠ none ∧ phases s.table i = f.slotPhase := by
  unfold State.inItsPhase
  cases f.owner with
  | none => simp
  | some i =>
    simp only [Option.isSome_iff_ne_none, Bool.and_eq_true, Option.some.injEq, forall_eq', reduceCtorEq, false_imp_iff, true_and]
    exact and_congr_right fun _ => decide_eq_true_iff

theorem hasItsClaim_iff (s : State) (f : OwnFrame) : s.hasItsClaim f = true ↔
    ∀ b, f.frame.body = .claim b → ∃ e ∈ s.claim.claims, f.owner = some e.slot ∧ e.ownsFrame b = true := by
  unfold State.hasItsClaim
  cases f.frame.body <;> simp

theorem outboundLawful_iff (s : State) : s.outboundLawful ↔ InStep s := by
  constructor
  · rintro ⟨⟨howners, hrolls, hprobes⟩, hframes, ⟨hslots, hclaiming⟩, ⟨honce, hposting⟩, hroll, hnone, hprobe⟩
    have hphase f hf := (inItsPhase_iff s f).1 (hframes f hf).1
    exact ⟨⟨howners, fun f hf => (hphase f hf).1, fun f hf => (hphase f hf).2, fun f hf => (hasItsClaim_iff s f).1 (hframes f hf).2,
      hslots, hclaiming, honce, hposting⟩, ⟨hrolls, hroll, hnone⟩, ⟨hprobes, hprobe⟩⟩
  · rintro ⟨hs, hr, hp⟩
    exact ⟨⟨hs.owners, hr.one, hp.one⟩,
      fun f hf => ⟨(inItsPhase_iff s f).2 ⟨hs.unowned f hf, hs.owned f hf⟩, (hasItsClaim_iff s f).2 (hs.claimed f hf)⟩,
      ⟨hs.slots, hs.claiming⟩, ⟨hs.once, hs.posting⟩, hr.waits, hr.clear, hp.waits⟩

/-- The law in numbers: at most 8 frames of slots, one of the Roll Unit and one PROBE. -/
theorem outbound_length_le {s : State} (h : InStep s) : s.outbound.length ≤ 10 := by
  have hsplit : ∀ out : List OwnFrame, (∀ f ∈ out, f.owner = none → f.slotPhase = none) →
      out.length ≤ (out.filterMap OwnFrame.owner).length + (out.filter OwnFrame.isOfRollUnit).length +
        (out.filter OwnFrame.isProbe).length := by
    intro out
    induction out with
    | nil => simp
    | cons f out ih =>
      intro hf
      have hrest := ih (fun g hg => hf g (List.mem_cons_of_mem _ hg))
      have hhead := hf f List.mem_cons_self
      rw [List.filterMap_cons, List.filter_cons, List.filter_cons, List.length_cons]
      cases ho : f.owner with
      | some i => grind
      | none =>
        have hkind : f.isOfRollUnit = true ∨ f.isProbe = true := by
          have := hhead ho
          cases hb : f.frame.body <;>
            simp_all [OwnFrame.slotPhase, OwnFrame.isOfRollUnit, OwnFrame.isProbe, Body.isRoll, Body.isRoster, Body.kindByte]
        rcases hkind with hk | hk <;> grind
  have howners : (s.outbound.filterMap OwnFrame.owner).length ≤ 8 := by
    simpa using h.slots.owners.length_le_card
  have := hsplit s.outbound h.slots.unowned
  have := h.roll.one
  have := h.probe.one
  omega

/-- At most one frame of each slot. -/
theorem outbound_owner_le {s : State} (h : InStep s) (i : SlotIx) :
    (s.outbound.filter (fun f => decide (f.owner = some i))).length ≤ 1 := by
  have hcount : ∀ out : List OwnFrame,
      (out.filter (fun f => decide (f.owner = some i))).length = (out.filterMap OwnFrame.owner).count i := by
    intro out
    induction out with
    | nil => rfl
    | cons f out ih =>
      rw [List.filter_cons, List.filterMap_cons]
      cases ho : f.owner with
      | none => simpa using ih
      | some j => by_cases hj : j = i <;> simp [hj, ih]
  rw [hcount]
  exact List.nodup_iff_count_le_one.1 h.slots.owners i

/-! ### The service of one slot -/

/-- No frame, no claim and no place in the posting order belongs to the slot. -/
abbrev LooseIn (i : SlotIx) (s : State) : Prop := Loose i s.outbound s.claim.claims s.table.posting

theorem filter_append_single {α : Type} {p : α → Bool} (l : List α) {a : α} (ha : p a = false) : (l ++ [a]).filter p = l.filter p := by
  rw [List.filter_append, List.filter_singleton, ha]
  exact List.append_nil _

/-- The frames of the Roll Unit that wait. -/
abbrev unitFrames (s : State) : List OwnFrame := s.outbound.filter OwnFrame.isOfRollUnit

/-- What the service of a slot keeps: the law, that other slots are loose, and the frames of the Roll Unit. -/
structure Serves (i : SlotIx) (s t : State) : Prop where
  inStep : InStep t
  others : ∀ j, j ≠ i → LooseIn j s → LooseIn j t
  unit   : unitFrames t = unitFrames s

theorem Serves.refl (i : SlotIx) {s : State} (h : InStep s) : Serves i s s := ⟨h, fun _ _ hl => hl, rfl⟩

theorem Serves.trans {i : SlotIx} {s t u : State} (h : Serves i s t) (g : Serves i t u) : Serves i s u :=
  ⟨g.inStep, fun j hj hl => g.others j hj (h.others j hj hl), g.unit.trans h.unit⟩

/-- The law does not read the Lease Table. -/
theorem InStep.mapLease {s : State} (h : InStep s) (f : LeaseTable → LeaseTable) : InStep (s.mapLease f) := ⟨h.slots, h.roll, h.probe⟩

theorem Serves.mapLease (i : SlotIx) {s : State} (h : InStep s) (f : LeaseTable → LeaseTable) : Serves i s (s.mapLease f) :=
  ⟨h.mapLease f, fun _ _ hl => hl, rfl⟩

theorem phases_othersKept {i j : SlotIx} {t u : RequestTable} (h : RequestTable.OthersKept i t u) (hj : j ≠ i) :
    phases u j = phases t j := by
  simpa [phases, Option.map_map, Function.comp_def] using congrArg (Option.map Slot.phase) (h.slot j hj)

theorem phases_modifySlot_self {i : SlotIx} {t : RequestTable} {sl : Slot} (hs : t.slot i = some sl) (f : Slot → Slot) :
    phases (t.modifySlot i f) i = some (f sl).phase := by
  simp [phases, RequestTable.slot_modifySlot, hs]

/-- A waiting or free slot is loose. -/
theorem InStep.loose {s : State} (h : InStep s) {i : SlotIx} (hp : ∀ p, phases s.table i = some p → p = .waiting) : LooseIn i s :=
  h.slots.loose_of_phase hp

theorem InStep.loose_of_slot {s : State} (h : InStep s) {i : SlotIx} {sl : Slot} (hs : s.table.slot i = some sl)
    (hp : sl.phase = .waiting) : LooseIn i s :=
  h.loose (fun p hph => by rw [phases, hs] at hph; exact (Option.some.inj hph).symm.trans hp)

section Service
variable {i : SlotIx} {s : State} (h : InStep s) (hl : LooseIn i s)
include h hl

/-- A loose slot changes. -/
theorem serves_modifySlot (f : Slot → Slot) : Serves i s (s.mapTable (fun t => t.modifySlot i f)) := by
  refine ⟨⟨?_, h.roll, h.probe⟩, fun j _ hj => ?_, rfl⟩
  · simp only [State.mapTable_outbound, State.mapTable_claim, State.mapTable_table, RequestTable.modifySlot_posting]
    exact h.slots.update hl (fun j hj => phases_othersKept (.modifySlot i f s.table) hj)
  · simpa [LooseIn] using hj

omit h in
theorem loose_modifySlot (f : Slot → Slot) : LooseIn i (s.mapTable (fun t => t.modifySlot i f)) := by simpa [LooseIn] using hl

/-- The request of a loose slot completes (R106). -/
theorem serves_post (c : Completion) {sl : Slot} (hs : s.table.slot i = some sl) : Serves i s (s.mapTable (fun t => t.post i c)) := by
  have hslots := h.slots.update hl (fun j hj => phases_othersKept (.post i c s.table) hj)
  by_cases ha : s.table.admits = true ∧ s.table.posting = []
  · have hpost : (s.table.post i c).posting = s.table.posting := by
      rw [RequestTable.post_admitted i c _ ha.1 ha.2, RequestTable.freeSlot_posting]
    refine ⟨⟨?_, h.roll, h.probe⟩, fun j _ hj => ?_, rfl⟩
    · simp only [State.mapTable_outbound, State.mapTable_claim, State.mapTable_table, hpost]
      exact hslots
    · simpa only [LooseIn, State.mapTable_outbound, State.mapTable_claim, State.mapTable_table, hpost] using hj
  · have hpost : (s.table.post i c).posting = s.table.posting ++ [i] := by rw [RequestTable.post_waits i c _ ha]
    have hphase : phases (s.table.post i c) i = some .posting := by
      rw [RequestTable.post_waits i c _ ha]
      exact phases_modifySlot_self hs _
    refine ⟨⟨?_, h.roll, h.probe⟩, fun j hne hj => ?_, rfl⟩
    · simp only [State.mapTable_outbound, State.mapTable_claim, State.mapTable_table, hpost]
      exact hslots.enterPosting hl.posting hphase
    · refine ⟨hj.frames, hj.claims, ?_⟩
      rw [State.mapTable_table, hpost]
      exact fun hm => (List.mem_append.1 hm).elim hj.posting (fun hm => hne (List.mem_singleton.1 hm))

theorem serves_finish (st : Status) (c : Content) : Serves i s (s.finish i st c) := by
  change Serves i s (s.mapTable (fun t => t.finish i st c))
  unfold RequestTable.finish
  cases hs : s.table.slot i with
  | none => simpa only [State.mapTable, hs] using Serves.refl i h
  | some sl => simpa only [State.mapTable, hs] using serves_post h hl _ hs

theorem serves_finishKept : Serves i s (s.mapTable (fun t => t.finishKept i)) := by
  unfold RequestTable.finishKept
  cases hs : s.table.slot i with
  | none => simpa only [State.mapTable, hs] using Serves.refl i h
  | some sl =>
    cases hc : sl.completion with
    | none => simpa only [State.mapTable, hs, hc] using Serves.refl i h
    | some c => simpa only [State.mapTable, hs, hc] using serves_post h hl c hs

/-- A frame of a loose slot joins the queue, and the slot goes to the phase in which it waits for it. -/
theorem serves_enqueue {b : Body} {f : Slot → Slot} {sl : Slot} (hs : s.table.slot i = some sl)
    (hb : (made s (some i) b).slotPhase = some (f sl).phase) (hc : ∀ c, b ≠ .claim c) :
    Serves i s ((s.enqueue b (some i)).mapTable (fun t => t.modifySlot i f)) := by
  have hkind : (made s (some i) b).isOfRollUnit = false ∧ (made s (some i) b).isProbe = false := by
    cases b <;>
      simp_all [made, OwnFrame.slotPhase, OwnFrame.isOfRollUnit, OwnFrame.isProbe, Body.isRoll, Body.isRoster, Body.kindByte]
  refine ⟨⟨?_, h.roll.enqueue hkind.1, h.probe.enqueue hkind.2⟩, fun j hj hlj => ⟨fun g hg => ?_, hlj.claims, ?_⟩, ?_⟩
  · simp only [State.mapTable_outbound, State.mapTable_claim, State.mapTable_table, RequestTable.modifySlot_posting]
    refine (h.slots.update hl (fun j hj => phases_othersKept (.modifySlot i f s.table) hj)).enqueue hl.frames (f := made s (some i) b)
      rfl ?_ ?_ (fun c hcl => absurd hcl (hc c))
    · rw [hb]; exact Option.some_ne_none _
    · rw [hb]; exact phases_modifySlot_self hs f
  · rcases List.mem_append.1 hg with hg | hg
    · exact hlj.frames g hg
    · rw [List.mem_singleton.1 hg]
      exact fun e => hj (Option.some.inj e).symm
  · simpa using hlj.posting
  · exact filter_append_single s.outbound hkind.1

/-- The station-level release of a hold for a loose slot (R64). -/
theorem serves_releaseHold (e : HoldEntry) (n : List Byte) (c : Option Completion) {sl : Slot} (hs : s.table.slot i = some sl) :
    Serves i s (s.releaseHold e n i c) := by
  have hserves := serves_enqueue h hl hs (f := fun sl => { sl with phase := .releasing, completion := c })
    (b := .release { resource := e.resource, mode := e.mode, note := match e.mode with | .exclusive => n | .shared => [] }) rfl
    (fun _ => nofun)
  exact ⟨⟨hserves.inStep.slots, hserves.inStep.roll, hserves.inStep.probe⟩, hserves.others, hserves.unit⟩

/-- A claim is issued for a loose slot (R34). -/
theorem serves_issueClaim (a : Acquire) {sl : Slot} (hs : s.table.slot i = some sl) : Serves i s (s.issueClaim i a) := by
  have hslots := h.slots.update hl (fun j hj =>
    phases_othersKept (.modifySlot i (fun sl => { sl with phase := .claiming }) s.table) hj)
  refine ⟨⟨?_, h.roll.enqueue rfl, h.probe.enqueue rfl⟩, fun j hj hlj => ⟨fun g hg => ?_, fun e he => ?_, ?_⟩, ?_⟩
  · simp only [State.issueClaim, State.enqueue, RequestTable.modifySlot_posting]
    have hphase := phases_modifySlot_self hs (fun sl => { sl with phase := .claiming })
    refine (hslots.addClaim hl.claims hphase).enqueue hl.frames rfl (by simp [OwnFrame.slotPhase]) hphase ?_
    rintro b ⟨⟩
    exact ⟨_, List.mem_append_right _ (List.mem_singleton_self _), rfl, by simp [ClaimEntry.ownsFrame]⟩
  · rcases List.mem_append.1 hg with hg | hg
    · exact hlj.frames g hg
    · rw [List.mem_singleton.1 hg]
      exact fun e => hj (Option.some.inj e).symm
  · rcases List.mem_append.1 he with he | he
    · exact hlj.claims e he
    · rw [List.mem_singleton.1 he]
      exact fun e => hj e.symm
  · simpa [State.issueClaim] using hlj.posting
  · exact filter_append_single s.outbound rfl

theorem serves_giveBack (st : Status) : Serves i s (s.giveBack i st).1 := by
  unfold State.giveBack
  split
  · exact .refl i h
  · rename_i sl hs
    split
    · exact .refl i h
    · dsimp only
      split
      · exact serves_finish h hl ..
      · split
        · split
          · exact serves_releaseHold h hl _ _ _ hs
          · exact (Serves.mapLease i h _).trans (serves_finish (h.mapLease _) hl ..)
        · exact serves_finish h hl ..

theorem serves_failAcquire (st : Status) : Serves i s (s.failAcquire i st).1 := by
  unfold State.failAcquire
  split
  · exact .refl i h
  · split
    · exact serves_finish h hl ..
    · exact serves_giveBack h hl st

theorem serves_succeedAcquire : Serves i s (s.succeedAcquire i).1 := by
  unfold State.succeedAcquire
  split
  · exact .refl i h
  · split
    · exact .refl i h
    · exact serves_finish h hl ..

theorem serves_localJoin (sl : Slot) (a : Acquire) : Serves i s (s.localJoin i sl a) ∧ LooseIn i (s.localJoin i sl a) :=
  ⟨(Serves.mapLease i h _).trans (serves_modifySlot (h.mapLease _) hl _), loose_modifySlot (s := s.mapLease _) hl _⟩

/-- One examination of a loose slot; where it is to go on, the slot is still loose. -/
theorem serves_examineOnce : Serves i s (s.examineOnce i).1 ∧ ((s.examineOnce i).2.2 = true → LooseIn i (s.examineOnce i).1) := by
  unfold State.examineOnce
  split
  · exact ⟨.refl i h, nofun⟩
  · rename_i sl hs
    split
    · exact ⟨.refl i h, nofun⟩
    · rename_i a _
      split
      · obtain ⟨hj, hlj⟩ := serves_localJoin h hl sl a
        dsimp only
        split
        · exact ⟨hj.trans (serves_modifySlot hj.inStep hlj _), fun _ => loose_modifySlot hlj _⟩
        · exact ⟨hj.trans (serves_succeedAcquire hj.inStep hlj), nofun⟩
      · split
        · exact ⟨.refl i h, nofun⟩
        · exact ⟨serves_failAcquire h hl _, nofun⟩
      · exact ⟨serves_failAcquire h hl _, nofun⟩
      · exact ⟨serves_issueClaim h hl a hs, nofun⟩
      · exact ⟨.refl i h, nofun⟩

theorem serves_examine : Serves i s (s.examine i).1 := by
  obtain ⟨h1, hl1⟩ := serves_examineOnce h hl
  unfold State.examine
  dsimp only
  split
  · rename_i hagain
    exact h1.trans (serves_examineOnce h1.inStep (hl1 hagain)).1
  · exact h1

end Service

/-! ### Re-examination -/

/-- What re-examination keeps: the law, that a slot that does not wait is loose, and the frames of the Roll Unit. -/
structure Service (s t : State) : Prop where
  inStep : InStep t
  unit   : unitFrames t = unitFrames s
  others : ∀ j, phases s.table j ≠ some .waiting → LooseIn j s → LooseIn j t

theorem waiting_of_waitsFor {sl : Slot} (h : sl.waitsFor ≠ none) : sl.phase = .waiting := by
  by_contra hp
  exact h (waitsFor_of_phase hp)

theorem service_passes (n : Nat) (w : Work) {s : State} (h : InStep s) : Service s (s.passes n w) := by
  induction n generalizing w s with
  | zero => exact ⟨h, rfl, fun _ _ hl => hl⟩
  | succ n ih =>
    cases w with
    | nil => exact ⟨h, rfl, fun _ _ hl => hl⟩
    | cons p w =>
      obtain ⟨i, k⟩ := p
      unfold State.passes
      split
      · rename_i hc
        obtain ⟨sl, hs, hw⟩ := RequestTable.stillNamed_waits ((Bool.and_eq_true _ _).mp hc).2
        have hwait := waiting_of_waitsFor hw
        have h1 := serves_examine h (h.loose_of_slot hs hwait)
        have h2 := ih (w ++ (s.examine i).2) h1.inStep
        refine ⟨h2.inStep, h2.unit.trans h1.unit, fun j hj hl => ?_⟩
        have hji : j ≠ i := by
          rintro rfl
          exact hj (by rw [phases, hs, Option.map_some, hwait])
        refine h2.others j ?_ (h1.others j hji hl)
        rwa [phases_othersKept (othersKept_examine i s) hji]
      · exact ih w h

theorem service_reexamine (w : Work) {s : State} (h : InStep s) : Service s (s.reexamine w) := service_passes _ w h

theorem InStep.reexamine {s : State} (h : InStep s) (w : Work) : InStep (s.reexamine w) := (service_reexamine w h).inStep

theorem InStep.reexamined {p : State × Work} (h : InStep p.1) : InStep (Machine.reexamined p) := h.reexamine p.2

/-! ### Changes of the other blocks, notices and the Roll Unit -/

theorem inPhase_congr {r r' : RollUnit} (h : r'.outstanding = r.outstanding) (p : RollPhase) : r'.inPhase p = r.inPhase p := by
  unfold RollUnit.inPhase
  rw [h]

/-- The law with nothing waiting: only the slots to post are asked for. -/
theorem inStep_of_empty {s : State} (ho : s.outbound = []) (hc : s.claim.claims = []) (hr : s.roll.outstanding = none)
    (hp : s.probe.phase ≠ .queued) (honce : s.table.posting.Nodup)
    (hposting : ∀ i ∈ s.table.posting, phases s.table i = some .posting) : InStep s where
  slots := by
    rw [ho, hc]
    exact ⟨List.nodup_nil, nofun, nofun, nofun, List.nodup_nil, nofun, honce, hposting⟩
  roll := by
    rw [ho]
    exact rollLaw_of_filter_eq_nil rfl (inPhase_of_none hr _) (fun _ => hr)
  probe := by
    rw [ho]
    exact probeLaw_of_filter_eq_nil rfl hp

/-- The law with every block at its initial values. -/
theorem inStep_holdReset (a b : Bool) (n : Nat) (s : State) : InStep (s.holdReset a b n) :=
  inStep_of_empty rfl rfl rfl nofun List.nodup_nil nofun

theorem inStep_releaseReset (x : StationAddr) (s : State) : InStep (s.releaseReset x) :=
  inStep_of_empty rfl rfl rfl nofun List.nodup_nil nofun

section InStep
variable {s : State} (h : InStep s)
include h

theorem InStep.raiseNotice (n : Notice) : InStep (s.raiseNotice n) := by
  unfold State.raiseNotice
  split <;> exact ⟨h.slots, h.roll, h.probe⟩

theorem InStep.raiseState (c : NoticeCause) (st : StationState) : InStep (s.raiseState c st) := h.raiseNotice _

theorem InStep.raiseRoster (q : Byte) (old new : List RosterEntry) : InStep (s.raiseRoster q old new) := by
  unfold State.raiseRoster
  dsimp only
  split
  · exact h
  · exact h.raiseNotice _

theorem InStep.enter (st : StationState) : InStep (s.enter st) := ⟨h.slots, h.roll, h.probe⟩
theorem InStep.setRefused : InStep s.setRefused := ⟨h.slots, h.roll, h.probe⟩
theorem InStep.releaseBypass : InStep s.releaseBypass := ⟨h.slots, h.roll, h.probe⟩
theorem InStep.countFormat : InStep s.countFormat := ⟨h.slots, h.roll, h.probe⟩
theorem InStep.countHop : InStep s.countHop := ⟨h.slots, h.roll, h.probe⟩

theorem InStep.forward (f : Frame) (b : Body) : InStep (s.forward f b) := by
  unfold State.forward State.offerForward
  split <;> exact ⟨h.slots, h.roll, h.probe⟩

theorem InStep.arrive (l : List Byte) : InStep (s.arrive l) := by
  unfold State.arrive
  split <;> exact ⟨h.slots, h.roll, h.probe⟩

/-- A slot changes its fields and not its phase. -/
theorem InStep.modifySlot (i : SlotIx) {f : Slot → Slot} (hf : ∀ sl, (f sl).phase = sl.phase) :
    InStep (s.mapTable (fun t => t.modifySlot i f)) := by
  have hph : phases (s.table.modifySlot i f) = phases s.table := by
    funext j
    unfold phases
    rw [RequestTable.slot_modifySlot]
    split
    · rename_i e
      rw [e, Option.map_map]
      exact congrArg (Option.map · _) (funext hf)
    · rfl
  refine ⟨?_, h.roll, h.probe⟩
  simp only [State.mapTable_outbound, State.mapTable_claim, State.mapTable_table, RequestTable.modifySlot_posting, hph]
  exact h.slots

/-- The Roll Unit changes, its outstanding roll apart; an origination that was not held is not held after it. -/
theorem InStep.mapRoll {f : RollUnit → RollUnit} (ho : (f s.roll).outstanding = s.roll.outstanding)
    (hh : (f s.roll).held = true → s.roll.held = true) : InStep (s.mapRoll f) :=
  ⟨h.slots, h.roll.congr (inPhase_congr ho _) (fun hr => ho.trans (h.roll.clear (hr.imp_right hh))), h.probe⟩

theorem InStep.startRollTimer : InStep s.startRollTimer := by
  unfold State.startRollTimer
  split
  · exact h.mapRoll rfl id
  · exact h

/-- The outstanding roll, one that has been sent or abandoned, becomes none. -/
theorem InStep.dropRoll {f : RollUnit → RollUnit} (hq : s.roll.inPhase .queued = false) (hn : (f s.roll).outstanding = none) :
    InStep (s.mapRoll f) :=
  ⟨h.slots, h.roll.congr ((inPhase_of_none hn _).trans hq.symm) (fun _ => hn), h.probe⟩

theorem InStep.makeRoll (hn : s.roll.outstanding = none) (hr : s.rosterWaits = false) : InStep s.makeRoll :=
  ⟨h.slots.enqueueUnowned rfl rfl, rollLaw_of_roll (h.roll.filter_eq_nil (inPhase_of_none hn _) hr) rfl rfl rfl, h.probe.enqueue rfl⟩

/-- A roll is originated, or its origination held, with none outstanding (R112, R116). -/
theorem InStep.originate (hn : s.roll.outstanding = none) : InStep s.originate := by
  unfold State.originate
  split
  · exact ⟨h.slots, h.roll.congr (inPhase_congr rfl _) (fun _ => hn), h.probe⟩
  · rename_i hr
    exact h.makeRoll hn (Bool.eq_false_iff.2 hr)

theorem InStep.originateIfNone : InStep s.originateIfNone := by
  unfold State.originateIfNone
  split
  · rename_i hn
    exact h.originate hn
  · exact h

theorem InStep.makeHeld : InStep s.makeHeld := by
  unfold State.makeHeld
  split
  · rename_i hc
    rw [Bool.and_eq_true, Bool.not_eq_true'] at hc
    split
    · exact h.makeRoll (h.roll.clear (.inr hc.1)) hc.2
    · exact h.mapRoll rfl nofun
  · exact h

/-- A roll that has been sent or abandoned ends, and another is originated where the state allows it. -/
theorem InStep.originateAfresh {f : RollUnit → RollUnit} (hq : s.roll.inPhase .queued = false)
    (hn : (f s.roll).outstanding = none) : InStep (if (s.mapRoll f).mayOriginate then (s.mapRoll f).originate else s.mapRoll f) := by
  split
  · exact (h.dropRoll hq hn).originate hn
  · exact h.dropRoll hq hn

omit h in
/-- A roll in another phase is not QUEUED. -/
theorem not_queued_of_inPhase {r : RollUnit} {p : RollPhase} (hp : r.inPhase p = true) (hne : p ≠ .queued) :
    r.inPhase .queued = false := by
  obtain ⟨o, ho, rfl⟩ := (inPhase_iff p r).1 hp
  simp [RollUnit.inPhase, ho, hne]

theorem InStep.rollAgesOut {p : RollPhase} (hp : p ≠ .queued) : InStep (s.rollAgesOut p) := by
  unfold State.rollAgesOut
  split
  · rename_i ha
    have hin : s.roll.inPhase p = true := by
      unfold RollUnit.aged at ha
      unfold RollUnit.inPhase
      split at ha
      · nomatch ha
      · exact ((Bool.and_eq_true _ _).mp ha).1
    exact h.originateAfresh (not_queued_of_inPhase hin hp) (outstanding_retire _)
  · exact h

theorem InStep.rosterClears : InStep s.rosterClears := by
  unfold State.rosterClears
  split
  · rename_i ha
    have hq := not_queued_of_inPhase ha nofun
    dsimp only
    split
    · exact (h.dropRoll hq (outstanding_retire _)).startRollTimer
    · exact h.originateAfresh hq (outstanding_retire _)
  · exact h

/-- An abandoned roll leaves the queue, and no ROSTER waits while it is outstanding (R120). -/
theorem InStep.abandonRoll : InStep s.abandonRoll := by
  cases ho : s.roll.outstanding with
  | none =>
    unfold State.abandonRoll
    rw [ho]
    exact h
  | some o =>
    have hne : s.roll.outstanding ≠ none := by rw [ho]; nofun
    by_cases hp : o.phase = .queued
    · rw [abandonRoll_queued ho hp]
      have hout : (abandonedState o s).removeRoll.outbound = s.outbound.filter (fun f => !f.frame.body.isRoll) := by
        rw [State.removeRoll_outbound]; rfl
      refine ⟨?_, ?_, ?_⟩
      all_goals rw [hout]
      · simp only [State.removeRoll_claim, State.removeRoll_table]
        exact h.slots.sublist List.filter_sublist
      · rw [State.removeRoll_roll]
        refine rollLaw_of_filter_eq_nil ?_ rfl (fun hh => ?_)
        · refine (filter_isOfRollUnit_eq_nil_iff _).2 ⟨by simp [rollIn], ?_⟩
          have := h.roll.rosterIn_eq_false hne
          simp only [rosterIn, List.any_eq_false, List.mem_filter] at this ⊢
          exact fun f hf => this f hf.1
        · exact absurd (h.roll.clear (.inr hh)) hne
      · rw [State.removeRoll_probe]
        have hprobe : ∀ f : OwnFrame, (!f.frame.body.isRoll && f.isProbe) = f.isProbe := fun f => by
          cases hb : f.frame.body <;> simp [OwnFrame.isProbe, hb, Body.kindByte, Body.isRoll]
        refine ⟨?_, ?_⟩
        · rw [List.filter_filter]
          simp only [Bool.and_comm, hprobe]
          exact h.probe.one
        · rw [List.any_filter]
          simp only [hprobe]
          exact h.probe.waits
    · rw [abandonRoll_sent ho hp]
      have hq : s.roll.inPhase .queued = false := by simp [RollUnit.inPhase, ho, hp]
      exact ⟨h.slots, h.roll.congr (hq ▸ rfl) (fun hh => absurd (h.roll.clear hh) hne), h.probe⟩

end InStep

/-! ### The station's changes -/

/-- The slots' law with neither frames nor claims in the queue, which BYPASS leaves. -/
structure Emptied (s : State) : Prop where
  inStep   : InStep s
  outbound : s.outbound = []
  claims   : s.claim.claims = []

theorem Emptied.finish {s : State} (h : Emptied s) {i : SlotIx} (hi : i ∉ s.table.posting) (st : Status) (c : Content) :
    Emptied (s.finish i st c) :=
  ⟨(serves_finish h.inStep ⟨by simp [h.outbound], by simp [h.claims], hi⟩ st c).inStep, h.outbound, h.claims⟩

theorem Emptied.abortSlot {s : State} (h : Emptied s) (i : SlotIx) : Emptied (s.abortSlot i) := by
  unfold State.abortSlot
  split
  · exact h
  · rename_i sl hs
    split
    · exact h
    · rename_i hp
      refine h.finish (fun hi => hp ?_) ..
      have := h.inStep.slots.posting i hi
      rw [phases, hs] at this
      exact Option.some.inj this

section Station
variable {s : State} (h : InStep s)
include h

theorem InStep.duplicateHalt : InStep s.duplicateHalt := by
  have hempty : Emptied { s.assertBypass with
      claim := { s.claim with claims := [] }
      lease := s.lease.halt s.station.address
      roll := s.roll.halt } :=
    ⟨inStep_of_empty rfl rfl (outstanding_retire _) (by exact nofun) h.slots.once h.slots.posting, rfl, rfl⟩
  have hended := foldSlots (P := Emptied) State.abortSlot (fun _ i hs => hs.abortSlot i) s.table.order _ hempty
  exact (hended.inStep.enter .halted).raiseState .duplicateAddress s.station.state

omit h in
theorem inStep_restart (s : State) : InStep s.restart := by
  unfold State.restart
  exact InStep.raiseState (inStep_of_empty rfl rfl (outstanding_retire _) (by exact nofun) List.nodup_nil (by exact nofun)) _ _

omit h in
/-- The slot that LEAVE waits in is in WAITING (R78). -/
theorem leaveSlot_waits {t : RequestTable} {i : SlotIx} (hi : t.leaveSlot = some i) : phases t i = some .waiting := by
  have := List.find?_some hi
  split at this
  · nomatch this
  · rename_i sl hs
    rw [phases, hs, Option.map_some, of_decide_eq_true ((Bool.and_eq_true _ _).mp this).2]

theorem InStep.testLeaving : InStep s.testLeaving := by
  unfold State.testLeaving
  split
  · rename_i hd
    obtain ⟨-, -, hclaims, -⟩ := (leavingDone_iff s).1 hd
    rw [endLeaving_eq]
    have htable : (leftState s).table.posting.Nodup ∧
        ∀ i ∈ (leftState s).table.posting, phases (leftState s).table i = some .posting := by
      unfold leftState
      cases hi : s.table.leaveSlot with
      | none => exact ⟨h.slots.once, h.slots.posting⟩
      | some i =>
        have hloose : LooseIn i s := h.loose (fun p hp => by rw [leaveSlot_waits hi] at hp; exact (Option.some.inj hp).symm)
        have hserved := serves_finish h hloose .ok .none
        exact ⟨hserved.inStep.slots.once, hserved.inStep.slots.posting⟩
    exact (inStep_of_empty (s := leftState s) rfl hclaims (outstanding_retire _) nofun htable.1 htable.2).raiseNotice _
  · exact h

/-- The release step of a LEAVE slot that is loose (R73). -/
theorem InStep.leaveStep {i : SlotIx} (hl : LooseIn i s) {sl : Slot} (hs : s.table.slot i = some sl) : InStep (s.leaveStep i) := by
  unfold State.leaveStep
  split
  · exact (serves_modifySlot h hl _).inStep
  · exact (serves_releaseHold h hl _ _ _ hs).inStep

theorem InStep.endWaiting (i : SlotIx) : InStep (s.endWaiting i) := by
  unfold State.endWaiting
  split
  · exact h
  · rename_i sl hs
    split
    · rename_i hw
      exact (serves_failAcquire h (h.loose_of_slot hs (waiting_of_waitsFor (Option.isSome_iff_ne_none.1 hw))) _).inStep
    · exact h

omit h in
/-- The law, and a slot that waits without ACQUIRE fields, as one that LEAVE waits in does (R78). -/
def WaitsToLeave (i : SlotIx) (t : State) : Prop := InStep t ∧ ∃ x, t.table.slot i = some x ∧ x.phase = .waiting ∧ x.acquire = none

omit h in
/-- The waiting ACQUIREs end, and the slot of the LEAVE is none of theirs (R150). -/
theorem WaitsToLeave.endWaiting {i : SlotIx} {t : State} (ht : WaitsToLeave i t) (j : SlotIx) : WaitsToLeave i (t.endWaiting j) := by
  obtain ⟨ht, x, hx, hphase, hacquire⟩ := ht
  refine ⟨ht.endWaiting j, ?_⟩
  by_cases hij : i = j
  · subst hij
    rw [endWaiting_of_notWaiting (fun y hy => by rw [hx] at hy; cases hy; exact waitsFor_of_noAcquire hacquire)]
    exact ⟨x, hx, hphase, hacquire⟩
  · obtain ⟨-, -, -, hkept⟩ := endWaiting_keeps t j
    obtain ⟨n, hn⟩ := othersKept_some hkept hij hx
    exact ⟨_, hn, hphase, hacquire⟩

/-- Entry to LEAVING for a slot that waits without ACQUIRE fields (R150). -/
theorem InStep.enterLeaving {i : SlotIx} {sl : Slot} (hs : s.table.slot i = some sl) (hp : sl.phase = .waiting)
    (ha : sl.acquire = none) : InStep (s.enterLeaving i) := by
  have hentered : InStep ((s.enter .leaving).mapRoll (fun r => { r with timer := none, held := false })) :=
    (h.enter .leaving).mapRoll rfl nofun
  obtain ⟨hstep, x, hx, hphase, -⟩ :=
    foldSlots (P := WaitsToLeave i) State.endWaiting (fun _ j ht => ht.endWaiting j) s.table.order _ ⟨hentered, sl, hs, hp, ha⟩
  exact hstep.leaveStep (hstep.loose_of_slot hx hphase) hx

theorem InStep.rollDone : InStep s.rollDone := by
  unfold State.rollDone
  split
  · exact ((h.enter .active).reexamine _).raiseState _ _
  · exact ((h.enter .active).reexamine _).raiseState _ _
  all_goals exact h

omit h in
theorem rollTold_eq (b : RollBody) (s : State) :
    rollTold b s = (rollAnnounced b s).raiseRoster b.sequence s.roll.roster (rollRoster b) := by
  rw [raiseRoster_eq, (rollAnnounced_changes b s).1]
  rfl

/-- The roll that comes home leaves the queue free for its ROSTER (R124). -/
theorem InStep.rollAnnounced (hc : s.roll.inPhase .circulating = true) (b : RollBody) : InStep (rollAnnounced b s) := by
  have hq := not_queued_of_inPhase hc nofun
  have hne : s.roll.outstanding ≠ none := by
    obtain ⟨o, ho, -⟩ := (inPhase_iff _ _).1 hc
    rw [ho]
    nofun
  have hdropped : InStep (s.mapRoll (fun r => { r with outstanding := none })) := h.dropRoll hq rfl
  have hrebuilt : InStep (rollRebuilt b s) := ⟨hdropped.slots, hdropped.roll, hdropped.probe⟩
  obtain ⟨hoffered, hunit, -⟩ := service_reexamine ((rollRebuilt b s).table.offerAll (List.finRange 64)) hrebuilt
  have hnil : unitFrames (rollOffered b s) = [] := hunit.trans (h.roll.filter_eq_nil hq (h.roll.rosterIn_eq_false hne))
  obtain ⟨-, hnone, -⟩ := rollAnnounced_changes b s
  exact ⟨hoffered.slots.enqueueUnowned rfl rfl, rollLaw_of_roster hnil rfl hnone, hoffered.probe.enqueue rfl⟩

theorem InStep.completeRoll (hc : s.roll.inPhase .circulating = true) (b : RollBody) : InStep (s.completeRoll b) := by
  rw [completeRoll_eq, rollTold_eq]
  exact ((h.rollAnnounced hc b).raiseRoster ..).rollDone.startRollTimer

/-! ### Frames of other stations -/

theorem InStep.takeClaim (o : StationAddr) (b : ClaimBody) : InStep (s.takeClaim o b).1 := by
  unfold State.takeClaim
  split
  · have h1 : InStep (s.engineTakesClaim o b).1 := by
      unfold State.engineTakesClaim
      split
      · exact h
      · exact ⟨h.slots.mapClaims (fun e => by split <;> rfl) (fun f _ b _ e _ _ ho => by split <;> exact ho), h.roll, h.probe⟩
      · exact h
    exact (h1.mapLease _).reexamined
  · exact h

theorem InStep.takeSettle (o : StationAddr) (b : SettleBody) : InStep (s.takeSettle o b) := by
  unfold State.takeSettle
  split
  · exact (h.mapLease _).reexamine _
  · exact h

theorem InStep.takeRelease (o : StationAddr) (b : ReleaseBody) : InStep (s.takeRelease o b) := by
  unfold State.takeRelease
  split
  · exact (h.mapLease _).reexamine _
  · exact h.mapLease _

theorem InStep.takeRoll (o : StationAddr) (b : RollBody) : InStep (s.takeRoll o b).1 := by
  unfold State.takeRoll
  split
  · exact h.duplicateHalt
  · split
    · exact h.countHop
    · split
      · split
        · exact h.abandonRoll
        · exact h
      · exact h

theorem InStep.restartTimer : InStep s.restartTimer := by
  unfold State.restartTimer
  split
  · exact h.startRollTimer
  · exact h

theorem InStep.takeRoster (b : RosterBody) : InStep (s.takeRoster b) := by
  unfold State.takeRoster
  split
  · unfold State.acceptRoster
    dsimp only
    exact (InStep.raiseRoster (InStep.mapRoll ((h.mapLease _).reexamine _) rfl id) ..).rosterClears.restartTimer
  · exact h.rosterClears

theorem InStep.takeForeign (f : Frame) : InStep (s.takeForeign f) := by
  unfold State.takeForeign
  split
  · exact (h.takeClaim _ _).forward _ _
  · exact (h.takeSettle _ _).forward _ _
  · exact (h.takeRelease _ _).forward _ _
  · rename_i b _
    have h1 := h.takeRoll f.origin b
    split
    · rename_i e
      rw [e] at h1
      exact h1
    · rename_i e
      rw [e] at h1
      exact h1.forward _ _
  · exact (h.takeRoster _).forward _ _
  · exact h.forward _ _

/-! ### Own frames home -/

/-- A claim that has left the list settles: its slot, in CLAIMING until then, takes the SETTLE and the report (R48 to R51, R58). -/
theorem InStep.settle {e : ClaimEntry} (hl : LooseIn e.slot s) {sl : Slot} (hs : s.table.slot e.slot = some sl) (o : SettleOutcome)
    (r : Report) : InStep ((s.enqueueSettle e o).report e.slot r) :=
  (serves_enqueue h hl hs (f := fun sl => { sl with phase := .settling, acquire := sl.acquire.map (Acquire.take r) }) rfl
    (by exact fun _ => nofun)).inStep

/-- A CIRCULATING claim leaves the list: its slot is there, and loose. -/
theorem InStep.unclaim {p : ClaimEntry → Bool} {e : ClaimEntry} (he : s.claim.claims.find? p = some e) (hc : e.phase = .circulating) :
    InStep { s with claim := s.claim.removeWhere p } ∧ LooseIn e.slot { s with claim := s.claim.removeWhere p } ∧
      ∃ sl, s.table.slot e.slot = some sl := by
  obtain ⟨hslots, hloose⟩ := h.slots.unclaim he hc
  have hphase := h.slots.claiming e (List.mem_of_find?_eq_some he)
  refine ⟨⟨hslots, h.roll, h.probe⟩, hloose, ?_⟩
  obtain ⟨sl, hs, -⟩ := Option.map_eq_some_iff.1 hphase
  exact ⟨sl, hs⟩

theorem InStep.claimHome (b : ClaimBody) : InStep (s.claimHome b) := by
  unfold State.claimHome
  split
  · exact h
  · rename_i e he
    have hmatch := List.find?_some he
    simp only [ClaimEntry.matchesReturn, Bool.and_eq_true, decide_eq_true_eq, and_assoc] at hmatch
    obtain ⟨h1, hl, sl, hs⟩ := h.unclaim he hmatch.1
    refine InStep.reexamine ?_ _
    unfold State.settleClaim
    split
    · exact h1.settle hl hs _ _
    · unfold State.grantClaim
      split
      · exact h1
      · exact ((h1.mapLease _).settle hl hs _ _).modifySlot _ (fun _ => rfl)
    · exact h1.settle hl hs _ _

theorem InStep.rollHome (b : RollBody) : InStep (s.rollHome b) := by
  have hphase : ∀ p, s.roll.matchesIn p b = true → s.roll.inPhase p = true := fun p hp => by
    obtain ⟨o, ho, hop, -⟩ := (matchesIn_iff p b s.roll).1 hp
    exact (inPhase_iff p s.roll).2 ⟨o, ho, hop⟩
  unfold State.rollHome
  split
  · rename_i hm
    exact h.completeRoll (hphase _ hm) b
  · split
    · rename_i hm
      have hq := not_queued_of_inPhase (hphase _ hm) nofun
      unfold State.abandonedHome
      dsimp only
      split
      · exact (h.dropRoll hq rfl).startRollTimer
      · exact h.originateAfresh hq rfl
    · split
      · exact h.mapRoll rfl id
      · exact h.duplicateHalt

/-- A PROBE that is OUT waits no more; the unit becomes IDLE (R180, R181). -/
theorem InStep.endProbe {p : ProbeUnit} (hout : s.probe.phase = .out) (hp : p.phase = .idle) : InStep { s with probe := p } :=
  ⟨h.slots, h.roll, probeLaw_of_filter_eq_nil (h.probe.filter_eq_nil (by rw [hout]; nofun)) (by rw [hp]; nofun)⟩

theorem InStep.takeOwn (f : Frame) : InStep (s.takeOwn f) := by
  unfold State.takeOwn
  split
  · exact h.claimHome _
  · exact h
  · exact h
  · exact h.rollHome _
  · exact h
  · unfold State.probeHome
    split
    · rename_i hc
      exact h.endProbe hc.1 rfl
    · exact h

theorem InStep.receive (f : Frame) : InStep (s.receive f) := by
  unfold State.receive
  split
  · have h1 := h.arrive f.bytes
    dsimp only
    split
    · refine InStep.testLeaving ?_
      unfold State.judgeFrame
      split
      · exact h1.takeOwn f
      · split
        · exact h1.countHop
        · exact h1.takeForeign f
    · exact h1.countFormat
  · exact h

end Station

/-! ### Requests -/

section Requests
variable {s : State} (h : InStep s) {i : SlotIx} (hl : LooseIn i s)
include h hl

theorem InStep.finish (st : Status) (c : Content) : InStep (s.finish i st c) := (serves_finish h hl st c).inStep

omit hl in
/-- A fault flag is none of the law's (R82). -/
theorem InStep.setFault (c : Client) (b : Bool) : InStep (s.mapTable (RequestTable.setFault c b)) := ⟨h.slots, h.roll, h.probe⟩

theorem InStep.handleAcquire (c : Client) (tag g m w : Byte) (f : Option Byte) : InStep (s.handleAcquire i c tag g m w f) := by
  unfold State.handleAcquire
  split
  · exact h.finish hl ..
  · split
    · exact h.finish hl ..
    · split
      · exact h.finish hl ..
      · split
        · exact (h.setFault c true).finish hl ..
        · exact (serves_examine (serves_modifySlot h hl _).inStep (loose_modifySlot hl _)).inStep.reexamined

theorem InStep.handleRelease (c : Client) (g : Byte) (note : List Byte) : InStep (s.handleRelease i c g note) := by
  unfold State.handleRelease
  split
  · exact h.finish hl ..
  · split
    · exact (h.setFault c true).finish hl ..
    · split
      · split
        · exact h
        · rename_i sl hs
          exact (serves_releaseHold h hl _ _ _ hs).inStep.reexamine _
      · exact (h.mapLease _).finish hl ..

omit h in
/-- A flag of a claim is none of the law's. -/
theorem Loose.modifyWhere {p : ClaimEntry → Bool} {f : ClaimEntry → ClaimEntry} (hf : ∀ e, (f e).slot = e.slot) :
    LooseIn i { s with claim := s.claim.modifyWhere p f } := by
  refine ⟨hl.frames, fun e he => ?_, hl.posting⟩
  obtain ⟨d, hd, rfl⟩ := List.mem_map.1 he
  split
  · rw [hf]
    exact hl.claims d hd
  · exact hl.claims d hd

/-- A CANCEL in a slot that holds no ACQUIRE finds its target in another. -/
theorem InStep.handleCancel {sl : Slot} (hs : s.table.slot i = some sl) (hk : sl.request.kind ≠ .acquire) (c : Client) (g : Byte) :
    InStep (s.handleCancel i c g) := by
  unfold State.handleCancel
  split
  · exact h.finish hl ..
  · rename_i j hj
    split
    · exact h.finish hl ..
    · rename_i x hx
      have hij : i ≠ j := by
        rintro rfl
        have htarget := List.find?_some hj
        simp only [hs, Slot.isTarget, Bool.and_eq_true, decide_eq_true_eq] at htarget
        exact hk htarget.1.1
      split
      · rename_i hp
        split
        · have hfailed := serves_failAcquire h (h.loose_of_slot hx hp) .cancelled
          exact (hfailed.inStep.finish (hfailed.others i hij hl) ..).reexamine _
        · exact h.finish hl ..
      · have hcancelled : InStep { s with claim := s.claim.cancelOf j } :=
          ⟨h.slots.mapClaims (fun e => by split <;> rfl) (fun f _ b _ e _ _ ho => by split <;> exact ho), h.roll, h.probe⟩
        exact hcancelled.finish (hl.modifyWhere (fun _ => rfl)) ..
      all_goals exact h.finish hl ..

theorem InStep.handleConfigure (c : Configuration) : InStep (s.handleConfigure i c) := by
  unfold State.handleConfigure
  split
  · have hfinished := InStep.finish (s := { s with station := { s.station with config := some c } }) ⟨h.slots, h.roll, h.probe⟩ hl .ok .none
    exact (hfinished.enter .joining).releaseBypass.raiseState _ _
  · exact h.finish hl ..

/-- A request that proceeds, in the slot that it has just taken (R79, R80). -/
theorem InStep.handle {sl : Slot} (hs : s.table.slot i = some sl) (hp : sl.phase = .waiting) (ha : sl.acquire = none) (c : Client)
    (tag : Byte) : InStep (s.handle i c tag sl.request) := by
  cases hr : sl.request with
  | configure interval units retry => exact h.handleConfigure hl _
  | acquire g m w f => exact h.handleAcquire hl ..
  | release g note => exact h.handleRelease hl ..
  | cancel target => exact h.handleCancel hl hs (by rw [hr]; nofun) ..
  | query g => unfold State.handle State.handleQuery; dsimp only; split <;> exact h.finish hl ..
  | stats =>
    have hcleared : InStep { s with ring := { s.ring with formatCount := 0, hopCount := 0, overflowCount := 0 } } :=
      ⟨h.slots, h.roll, h.probe⟩
    exact hcleared.finish hl ..
  | clearFault => exact (h.setFault c false).finish hl ..
  | leave => exact (h.enterLeaving hs hp ha).testLeaving
  | restart => exact h.finish hl ..

end Requests

/-- A record is accepted into a free slot, which is loose (R79). -/
theorem InStep.occupy {s : State} (h : InStep s) {i : SlotIx} (hi : s.table.lowestFree = some i) (c : Client) (tag : Byte) (r : Request) :
    InStep (s.occupy i c tag r) ∧ LooseIn i (s.occupy i c tag r) := by
  have hfree := RequestTable.lowestFree_slot i s.table hi
  have hl : LooseIn i s := h.loose (fun p hp => by rw [phases, hfree] at hp; nomatch hp)
  refine ⟨⟨h.slots.update hl (fun j hj => ?_), h.roll, h.probe⟩, hl⟩
  simp only [phases, State.occupy, State.mapTable_table, RequestTable.slot_setSlot, if_neg hj]

section Ports
variable {s : State} (h : InStep s)
include h

theorem InStep.offerRequest (c : Client) (tag : Byte) (r : Request) : InStep (s.offerRequest c tag r) := by
  unfold State.offerRequest
  split
  · exact h.setRefused
  · rename_i i hi
    obtain ⟨h1, hl⟩ := h.occupy hi c tag r
    dsimp only
    split
    · exact h1.handle hl (slot_setSlot_self i _ s.table) rfl rfl c tag
    · exact h1.finish hl ..
    · exact h1.finish hl ..

theorem InStep.commit (k : RequestKind) (r : HostRecord) : InStep (s.commit k r) := by
  have h1 : InStep { s with host := { s.host with assembly := .empty } } := ⟨h.slots, h.roll, h.probe⟩
  unfold State.commit
  dsimp only
  split
  · exact h1.setRefused
  · split
    · exact inStep_restart _
    · exact h1.offerRequest ..

theorem InStep.commitBytes (stored : List Byte) (declared : Byte) : InStep (s.commitBytes stored declared) := by
  unfold State.commitBytes
  split
  · exact ⟨h.slots, h.roll, h.probe⟩
  · exact h.commit _ _

theorem InStep.requestByte (b : Byte) : InStep (s.requestByte b) := by
  unfold State.requestByte
  split
  · exact ⟨h.slots, h.roll, h.probe⟩
  · split
    · exact h.commitBytes _ _
    · exact ⟨h.slots, h.roll, h.probe⟩
  · dsimp only
    split
    · exact h.commitBytes _ _
    · exact ⟨h.slots, h.roll, h.probe⟩

omit h in
theorem phases_freeSlot {i j : SlotIx} {t : RequestTable} {sl : Slot} (hs : t.slot i = some sl) (hj : j ≠ i) :
    phases (t.freeSlot i) j = phases t j := by
  have hlower : Slot.phase ∘ RequestTable.lower sl.accept = Slot.phase := by
    funext x
    simp only [Function.comp, RequestTable.lower]
    split <;> rfl
  rw [phases, (slots_freeSlot hs).2 j hj, Option.map_map, hlower, phases]

/-- The first slot to post posts, and nothing else waits for it (R106). -/
theorem InStep.postNext : InStep (s.mapTable RequestTable.postNext) := by
  have hpost : SlotLaw s.outbound s.claim.claims (phases s.table.postNext) s.table.postNext.posting := by
    unfold RequestTable.postNext
    split
    · exact h.slots
    · rename_i i rest hp
      have hlaw := h.slots
      rw [hp] at hlaw
      obtain ⟨hrest, hl⟩ := hlaw.leavePosting
      split
      · split
        · exact hrest
        · rename_i sl hs
          split
          · exact hrest
          · refine hrest.update hl (fun j hj => ?_)
            exact phases_freeSlot hs hj
      · exact h.slots
  exact ⟨hpost, h.roll, h.probe⟩

theorem InStep.postWaiting (n : Nat) : InStep (s.mapTable (RequestTable.postWaiting n)) := by
  induction n generalizing s with
  | zero => exact h
  | succ n ih => exact ih h.postNext

theorem InStep.readCompletion (first : Bool) : InStep (s.readCompletion first) := by
  unfold State.readCompletion
  split
  · exact ⟨h.slots, h.roll, h.probe⟩
  · unfold State.advanceRead
    split
    · exact ⟨h.slots, h.roll, h.probe⟩
    · have h1 : InStep { s.driveData s.completionByte with
          host := { (s.driveData s.completionByte).host with readPos := 0 }, table := s.table.dropHead } := ⟨h.slots, h.roll, h.probe⟩
      cases first
      · exact h1.postWaiting 8
      · exact h1

theorem InStep.probeWrite : InStep s.probeWrite := by
  unfold State.probeWrite
  split
  · rename_i hc
    have hidle : s.probe.phase = .idle := of_decide_eq_true ((Bool.and_eq_true _ _).mp hc).2
    exact ⟨h.slots.enqueueUnowned rfl rfl, h.roll.enqueue rfl, probeLaw_of_probe (h.probe.filter_eq_nil (by rw [hidle]; nofun)) rfl⟩
  · exact ⟨h.slots, h.roll, h.probe⟩

/-! ### The reports of sent frames (R170) -/

/-- A frame of a slot or a ROSTER leaves the queue. -/
theorem InStep.dequeueSent {f : OwnFrame} {rest : List OwnFrame} (ho : s.outbound = f :: rest) (hr : f.frame.body.isRoll = false)
    (hp : f.isProbe = false) : InStep s.dequeueSent := by
  obtain ⟨hs, hroll, hprobe⟩ := h
  rw [ho] at hs hroll hprobe
  have hout : s.dequeueSent.outbound = rest := by rw [State.dequeueSent_outbound, ho]; rfl
  refine ⟨?_, ?_, ?_⟩
  · rw [hout, State.dequeueSent_claim, State.dequeueSent_table]
    exact hs.sublist (List.sublist_cons_self f rest)
  · rw [hout, State.dequeueSent_roll]
    exact hroll.dequeue hr
  · rw [hout, State.dequeueSent_probe]
    exact hprobe.dequeue hp

/-- A sent SETTLE or RELEASE leaves its slot loose. -/
theorem InStep.loose_dequeueSent {f : OwnFrame} {rest : List OwnFrame} (ho : s.outbound = f :: rest) {i : SlotIx}
    (hi : f.owner = some i) (hf : f.slotPhase ≠ some .claiming) : LooseIn i s.dequeueSent := by
  have hs := h.slots
  rw [ho] at hs
  have hout : s.dequeueSent.outbound = rest := by rw [State.dequeueSent_outbound, ho]; rfl
  rw [LooseIn, hout, State.dequeueSent_claim, State.dequeueSent_table]
  exact hs.loose_of_sent hi hf

omit h in
/-- The report of a sent frame keeps the law where it does for the frame at the head. -/
theorem inStep_ownSent (h : InStep s) {kind : Byte} {report : OwnFrame → State → State}
    (hreport : ∀ f rest, s.outbound = f :: rest → f.frame.body.kindByte = kind → InStep (report f s.dequeueSent)) :
    InStep (s.ownSent kind report) := by
  unfold State.ownSent
  split
  · rename_i f rest _ ho
    split
    · rename_i hk
      exact (hreport f rest ho hk).testLeaving
    · exact h
  · exact h

/-- The claim of the CLAIM that was sent goes CIRCULATING; every other waiting CLAIM has a claim on another resource (R31, R36). -/
theorem InStep.claimSent (hh : s.holdsLawful) : InStep (s.ownSent 0x51 State.reportClaim) := by
  refine inStep_ownSent h (fun f rest ho hk => ?_)
  obtain ⟨b, hb⟩ : ∃ b, f.frame.body = .claim b := by cases hb : f.frame.body <;> simp_all [Body.kindByte]
  have h1 := h.dequeueSent ho (by rw [hb]; rfl) (by simp [OwnFrame.isProbe, hb, Body.kindByte])
  have hresources : (s.claim.claims.map ClaimEntry.resource).Nodup := (List.nodup_append.1 hh.2.2.1).2.1
  have hlaw := h.slots
  rw [ho] at hlaw
  obtain ⟨e, he, hfo, hown⟩ := hlaw.claimed f List.mem_cons_self b hb
  simp only [State.reportClaim, hb]
  refine ⟨h1.slots.mapClaims (fun d => by split <;> rfl) (fun g hg c hc d hd hgo hgown => ?_), h1.roll, h1.probe⟩
  have hgrest : g ∈ rest := by simpa [ho] using hg
  have hd' : d ∈ s.claim.claims := by simpa using hd
  split
  · rename_i hdown
    have hresource : ∀ {x : ClaimEntry}, x.ownsFrame b = true → x.resource = b.resource := fun hx => by
      simp only [ClaimEntry.ownsFrame, Bool.and_eq_true, decide_eq_true_eq] at hx
      exact hx.1.2
    have hde : d = e := eq_of_nodup_map hresources hd' he ((hresource hdown).trans (hresource hown).symm)
    have hnodup := hlaw.owners
    rw [List.filterMap_cons_some hfo] at hnodup
    exact absurd (List.mem_filterMap.2 ⟨g, hgrest, hde ▸ hgo⟩) (List.nodup_cons.1 hnodup).1
  · exact hgown

end Ports

/-! The rows of R95 -/

section Settled
variable {i : SlotIx} {s : State} (h : InStep s) (hl : LooseIn i s)
include h hl

theorem serves_chain : Serves i s (s.chain i).1 := by
  unfold State.chain
  split
  · exact (serves_modifySlot h hl _).trans (serves_failAcquire (serves_modifySlot h hl _).inStep (loose_modifySlot hl _) _)
  · exact serves_modifySlot h hl _

theorem serves_retry : Serves i s (s.retry i).1 := by
  unfold State.retry
  split
  · exact serves_failAcquire h hl _
  · exact serves_modifySlot h hl _

theorem serves_settled : Serves i s (s.settled i).1 := by
  unfold State.settled
  split
  · exact .refl i h
  · split
    · split
      · exact .refl i h
      · unfold State.settleRow
        split
        · split
          · exact serves_succeedAcquire h hl
          · split
            · exact serves_chain h hl
            · exact serves_succeedAcquire h hl
        · split
          · exact serves_retry h hl
          · exact serves_failAcquire h hl _
        · split
          · exact serves_failAcquire h hl _
          · exact serves_retry h hl
        · exact serves_failAcquire h hl _
        · exact serves_failAcquire h hl _
    · exact .refl i h

end Settled

section Sent
variable {s : State} (h : InStep s)
include h

theorem InStep.settleSent : InStep (s.ownSent 0x52 State.reportSettle) := by
  refine inStep_ownSent h (fun f rest ho hk => ?_)
  obtain ⟨b, hb⟩ : ∃ b, f.frame.body = .settle b := by cases hb : f.frame.body <;> simp_all [Body.kindByte]
  have h1 := h.dequeueSent ho (by rw [hb]; rfl) (by simp [OwnFrame.isProbe, hb, Body.kindByte])
  unfold State.reportSettle
  split
  · exact h1
  · rename_i i hi
    exact (serves_settled h1 (h.loose_dequeueSent ho hi (by simp [OwnFrame.slotPhase, hb]))).inStep.reexamined

/-- The slot in RELEASING stays loose through the re-examination of the resource offered (R66). -/
theorem InStep.releaseSent : InStep (s.ownSent 0x53 State.reportRelease) := by
  refine inStep_ownSent h (fun f rest ho hk => ?_)
  obtain ⟨b, hb⟩ : ∃ b, f.frame.body = .release b := by cases hb : f.frame.body <;> simp_all [Body.kindByte]
  have h1 := (h.dequeueSent ho (by rw [hb]; rfl) (by simp [OwnFrame.isProbe, hb, Body.kindByte])).mapLease
    (LeaseTable.removeHold b.resource)
  simp only [State.reportRelease, hb]
  have h2 := service_reexamine
    ((s.dequeueSent.mapLease (LeaseTable.removeHold b.resource)).table.offer b.resource) h1
  split
  · exact h2.inStep
  · rename_i i hi
    have hl := h.loose_dequeueSent ho hi (by simp [OwnFrame.slotPhase, hb])
    have hphase : phases s.table i = some .releasing := by
      rw [(h.slots.owned f (ho ▸ List.mem_cons_self) i hi).2, OwnFrame.slotPhase, hb]
    have hl2 := h2.others i (by rw [State.mapLease_table, State.dequeueSent_table, hphase]; nofun) hl
    unfold State.released
    split
    · exact h2.inStep
    · rename_i sl hs
      split
      · exact h2.inStep.leaveStep hl2 hs
      · exact (serves_finishKept h2.inStep hl2).inStep

/-- The ROLL that was sent was the only frame of the Roll Unit in the queue (R117). -/
theorem InStep.rollSent : InStep (s.ownSent 0x54 State.reportRoll) := by
  refine inStep_ownSent h (fun f rest ho hk => ?_)
  obtain ⟨b, hb⟩ : ∃ b, f.frame.body = .roll b := by cases hb : f.frame.body <;> simp_all [Body.kindByte]
  obtain ⟨hs, hroll, hprobe⟩ := h
  rw [ho] at hs hroll hprobe
  have hout : s.dequeueSent.outbound = rest := by rw [State.dequeueSent_outbound, ho]; rfl
  refine ⟨?_, ?_, ?_⟩
  all_goals simp only [State.reportRoll, State.mapRoll_outbound, State.mapRoll_claim, State.mapRoll_table, State.mapRoll_roll,
    State.mapRoll_probe, hout, State.dequeueSent_claim, State.dequeueSent_table, State.dequeueSent_roll, State.dequeueSent_probe]
  · exact hs.sublist (List.sublist_cons_self f rest)
  · have hone := hroll.one
    rw [List.filter_cons, if_pos (by simp [OwnFrame.isOfRollUnit, hb, Body.isRoll])] at hone
    have hrest : rest.filter OwnFrame.isOfRollUnit = [] :=
      List.length_eq_zero_iff.1 (Nat.le_zero.1 (Nat.le_of_succ_le_succ hone))
    have hwaits : s.roll.inPhase .queued = true := by rw [← hroll.waits]; simp [rollIn, hb, Body.isRoll]
    obtain ⟨o, hoo, hop⟩ := (inPhase_iff _ _).1 hwaits
    rw [circulate_queued hoo hop]
    refine rollLaw_of_filter_eq_nil hrest rfl (fun hh => ?_)
    rw [hroll.clear (.inr hh)] at hoo
    nomatch hoo
  · exact hprobe.dequeue (by simp [OwnFrame.isProbe, hb, Body.kindByte])

theorem InStep.rosterSent : InStep (s.ownSent 0x55 State.reportRoster) := by
  refine inStep_ownSent h (fun f rest ho hk => ?_)
  obtain ⟨b, hb⟩ : ∃ b, f.frame.body = .roster b := by cases hb : f.frame.body <;> simp_all [Body.kindByte]
  exact (h.dequeueSent ho (by rw [hb]; rfl) (by simp [OwnFrame.isProbe, hb, Body.kindByte])).makeHeld

theorem InStep.probeSent : InStep (s.ownSent 0x56 State.reportProbe) := by
  refine inStep_ownSent h (fun f rest ho hk => ?_)
  have hf : f.isProbe = true := decide_eq_true hk
  obtain ⟨b, hb⟩ : ∃ q, f.frame.body = .probe q := by cases hb : f.frame.body <;> simp_all [Body.kindByte]
  obtain ⟨hs, hroll, hprobe⟩ := h
  rw [ho] at hs hroll hprobe
  have hout : s.dequeueSent.outbound = rest := by rw [State.dequeueSent_outbound, ho]; rfl
  refine ⟨?_, ?_, ?_⟩
  all_goals simp only [State.reportProbe, hout, State.dequeueSent_claim, State.dequeueSent_table, State.dequeueSent_roll]
  · exact hs.sublist (List.sublist_cons_self f rest)
  · exact hroll.dequeue (by rw [hb]; rfl)
  · exact probeLaw_of_filter_eq_nil (hprobe.tail_filter_eq_nil hf) nofun

/-! ### Link status and timers -/

theorem InStep.reportUp : InStep s.reportUp := by
  unfold State.reportUp
  split
  · have h1 : InStep s.linkComesUp := ⟨h.slots, h.roll, h.probe⟩
    unfold State.stationLinkUp
    split
    · exact h1.originateIfNone.raiseState _ _
    · exact (h1.enter .resync).originateIfNone.raiseState _ _
    · exact h1.raiseState _ _
    all_goals exact h1
  · exact h

theorem InStep.reportDown : InStep s.reportDown := by
  unfold State.reportDown
  split
  · have h1 : InStep s.linkGoesDown := by
      unfold State.linkGoesDown
      dsimp only
      split <;> exact ⟨h.slots, h.roll, h.probe⟩
    unfold State.stationLinkDown
    split
    · exact h1.raiseState _ _
    · exact (InStep.mapRoll (h1.enter .broken) (f := fun r => { r with timer := none }) rfl id).raiseState _ _
    · exact (h1.enter .broken).raiseState _ _
    · exact h1.raiseState _ _
    all_goals exact h1
  · exact h

theorem InStep.circuitExpires (q : Byte) : InStep (s.circuitExpires q) := by
  unfold State.circuitExpires
  split
  · exact h
  · rename_i e he
    have htimed := List.find?_some he
    simp only [ClaimEntry.timedOut, Bool.and_eq_true, decide_eq_true_eq, and_assoc] at htimed
    obtain ⟨h1, hl, sl, hs⟩ := h.unclaim he htimed.1
    exact ((h1.settle hl hs _ _).reexamine _).testLeaving

theorem InStep.intentExpires (k : Resource) (x : StationAddr) : InStep (s.intentExpires k x) := by
  unfold State.intentExpires
  split
  · exact (h.mapLease _).reexamine _
  · exact h

theorem InStep.rollTimerExpires : InStep s.rollTimerExpires := by
  unfold State.rollTimerExpires
  split
  · rename_i hc
    exact h.originate hc.2.2
  · exact h

theorem InStep.retiredExpires : InStep s.retiredExpires := by
  unfold State.retiredExpires
  split
  · exact h.mapRoll rfl id
  · exact h

theorem InStep.probeExpires : InStep s.probeExpires := by
  unfold State.probeExpires
  split
  · rename_i hd
    exact h.endProbe (of_decide_eq_true ((Bool.and_eq_true _ _).mp hd).1) rfl
  · exact h

/-- A change of the Ring Port alone. -/
theorem InStep.ring {t : State} (r : RingPort) (ht : t = { s with ring := r }) : InStep t := by
  rw [ht]
  exact ⟨h.slots, h.roll, h.probe⟩

/-! ### Commands, time and steps -/

theorem InStep.effect (hh : s.holdsLawful) (c : Instr) : InStep (effect c s) := by
  cases c with
  | requestAssemblyByte b y => exact h.requestByte b
  | configure r | acquire r | release r | cancel r | query r | stats r | clearFault r | leave r | restart r => exact h.commit _ r
  | completionRead first y => exact h.readCompletion first
  | probe b y => exact h.probeWrite
  | framingDiscard c =>
    obtain ⟨_, _, he⟩ := s.discardFraming_changes c
    exact h.ring _ he
  | formatDiscard l =>
    change InStep (s.receiveBad l)
    unfold State.receiveBad
    split
    · exact (h.arrive l).countFormat
    · exact h
  | claimReceipt | settleReceipt | releaseReceipt | rollReceipt | rosterReceipt | probeForward | ownClaimReturn | ownRollReturn
  | ownProbeReturn | ownFrameStripped => exact h.receive _
  | transmitChoice =>
    change InStep s.transmitChoice
    unfold State.transmitChoice
    split <;> exact ⟨h.slots, h.roll, h.probe⟩
  | claimTransmitted => exact h.claimSent hh
  | settleTransmitted => exact h.settleSent
  | releaseTransmitted => exact h.releaseSent
  | rollTransmitted => exact h.rollSent
  | rosterTransmitted => exact h.rosterSent
  | probeTransmitted => exact h.probeSent
  | heldOrigination => exact h.makeHeld
  | linkUp => exact h.reportUp
  | linkDown => exact h.reportDown
  | circuitTimeout q => exact h.circuitExpires q
  | intentExpiry k x => exact h.intentExpires k x
  | rollTimerExpiry => exact h.rollTimerExpires
  | rollLost | abandonedRollExpiry => exact h.rollAgesOut nofun
  | retiredRollExpiry => exact h.retiredExpires
  | probeTimeout => exact h.probeExpires
  | endOfLeaving => exact h.testLeaving
  | slotPosting => exact h.postNext
  | frameStart =>
    change InStep s.startFrame
    unfold State.startFrame
    split <;> exact ⟨h.slots, h.roll, h.probe⟩
  | _ => exact ⟨h.slots, h.roll, h.probe⟩

theorem InStep.exec (hh : s.holdsLawful) {c : Instr} {t : State} (ht : exec c s = .next t) : InStep t := by
  cases hp : isPower c with
  | true =>
    rcases exec_power hp ht with rfl | ⟨a, b, n, rfl⟩ | ⟨x, rfl⟩ | ⟨x, a, b, n, rfl⟩
    · exact h
    · exact inStep_holdReset a b n s
    · exact inStep_releaseReset x s
    · exact ⟨h.slots, h.roll, h.probe⟩
  | false =>
    have he := h.effect hh c
    rcases exec_outcome hp ht with rfl | rfl | rfl | rfl
    · exact h
    · exact ⟨h.slots, h.roll, h.probe⟩
    · exact he
    · exact ⟨he.slots, he.roll, he.probe⟩

/-- The timers count, and no phase changes by it. -/
theorem InStep.characterTime : InStep s.characterTime := by
  obtain ⟨r, ht⟩ := s.characterTime_changes
  rw [ht]
  have hmicro : s.tickMicro.outbound = s.outbound ∧ s.tickMicro.table = s.table ∧ s.tickMicro.probe.phase = s.probe.phase := by
    unfold State.tickMicro
    split
    · exact ⟨rfl, rfl, rfl⟩
    · refine ⟨rfl, rfl, ?_⟩
      change s.probe.tick.phase = _
      unfold ProbeUnit.tick
      split <;> rfl
  obtain ⟨hout, htable, hprobe⟩ := hmicro
  have htick : ∀ e : ClaimEntry, e.tick.slot = e.slot ∧ ∀ b, e.tick.ownsFrame b = e.ownsFrame b := fun e => by
    unfold ClaimEntry.tick
    split <;> exact ⟨rfl, fun _ => rfl⟩
  have hroll : ∀ p, s.roll.tick.inPhase p = s.roll.inPhase p := fun p => by
    unfold RollUnit.tick RollUnit.inPhase
    cases s.roll.outstanding with
    | none => rfl
    | some o =>
      have : o.tick.phase = o.phase := by unfold OutstandingRoll.tick; split <;> rfl
      simp only [Option.map_some, this]
  refine ⟨?_, ?_, ?_⟩
  all_goals dsimp only
  · rw [hout, htable]
    exact h.slots.mapClaims (fun e => (htick e).1) (fun f _ b _ e _ _ ho => ((htick e).2 b).trans ho)
  · rw [hout]
    exact h.roll.congr (hroll _) (fun hc => by simp only [RollUnit.tick, h.roll.clear hc, Option.map_none])
  · rw [hout, hprobe]
    exact h.probe

/-- Every step keeps the law of the Outbound Queue. -/
theorem InStep.step (hh : s.holdsLawful) {t : State} (ht : step s = .next t) : InStep t := by
  unfold Machine.step at ht
  split at ht
  · rw [← Host.Outcome.next.inj ht]
    unfold State.idleStep
    split
    · unfold State.resetStep
      split
      · split <;> exact ⟨h.slots, h.roll, h.probe⟩
      · exact h
    · split
      · exact ⟨h.slots, h.roll, h.probe⟩
      · exact h.characterTime
  · rename_i c rest _
    exact InStep.exec (s := { s with pending := rest }) ⟨h.slots, h.roll, h.probe⟩ hh ht

end Sent

end Sys2Proof.OutboundProofs

/-! ## The forwarding queue, the relief counter and the assembly buffer (O57) -/

namespace Sys2Proof.BufferProofs
open Sys2Proof.Machine Sys2Proof.Statement Sys2Proof.LeaseProofs Sys2Proof.RequestProofs Sys2Proof.RollProofs Sys2Proof.StationProofs
open Sys2Proof.PortProofs

/-! ### The law of the Ring Port (R167, R172, R177) -/

/-- What `forwardingWithinLimits` asks of the Ring Port of a station that is on the ring or off it. -/
structure RingLaw (r : RingPort) (onRing : Bool) : Prop where
  room     : r.queuedBytes - r.sentBytes ≤ 4096
  relief   : r.relief ≤ 8
  progress : r.forwardingInProgress = true
  silent   : onRing = false → r.transmitter = .silent ∧ r.forwarding = []

theorem forwardingWithinLimits_iff (s : State) : s.forwardingWithinLimits ↔ RingLaw s.ring s.station.state.onRing :=
  ⟨fun ⟨hroom, hrelief, hprogress, hsilent⟩ => ⟨hroom, hrelief, hprogress, hsilent⟩,
    fun ⟨hroom, hrelief, hprogress, hsilent⟩ => ⟨hroom, hrelief, hprogress, hsilent⟩⟩

/-- A transmitter that forwards no frame has sent none of the forwarding queue's bytes. -/
theorem sentBytes_eq_zero {r : RingPort} (h : ∀ n, r.transmitter ≠ .sendingForwarded n) : r.sentBytes = 0 := by
  unfold RingPort.sentBytes
  split
  case h_5 n hn => exact absurd hn (h n)
  all_goals rfl

theorem forwardingInProgress_of_other {r : RingPort} (h : ∀ n, r.transmitter ≠ .sendingForwarded n) : r.forwardingInProgress = true := by
  unfold RingPort.forwardingInProgress
  split
  · rename_i n hn _
    exact absurd hn (h n)
  · rename_i n _ _ hn _
    exact absurd hn (h n)
  · rfl

/-- A transmitter that forwards a frame has the frame at the head of the queue, and sends its bytes. -/
theorem forwardingInProgress_iff {r : RingPort} {n : Nat} (h : r.transmitter = .sendingForwarded n) :
    r.forwardingInProgress = true ↔ ∃ f rest, r.forwarding = f :: rest ∧ n ≤ f.length := by
  cases hf : r.forwarding <;> simp [RingPort.forwardingInProgress, h, hf]

theorem sentBytes_of_forwarded {r : RingPort} {n : Nat} (h : r.transmitter = .sendingForwarded n) : r.sentBytes = n - 1 := by
  simp only [RingPort.sentBytes, h]

theorem queuedBytes_cons {r : RingPort} {f : Frame} {rest : List Frame} (h : r.forwarding = f :: rest) :
    r.queuedBytes = f.length + (rest.map Frame.length).sum := by
  simp [RingPort.queuedBytes, h]

section RingLaw
variable {r q : RingPort} {on : Bool}

/-- The law reads the forwarding queue, the transmitter and the relief counter. -/
theorem RingLaw.congr (h : RingLaw r on) (hf : q.forwarding = r.forwarding) (ht : q.transmitter = r.transmitter) (hr : q.relief ≤ 8) :
    RingLaw q on := by
  have hqueued : q.queuedBytes = r.queuedBytes := congrArg (fun l => (l.map Frame.length).sum) hf
  have hsent : q.sentBytes = r.sentBytes := by unfold RingPort.sentBytes; rw [ht]
  refine ⟨by rw [hqueued, hsent]; exact h.room, hr, ?_, fun ho => by rw [ht, hf]; exact h.silent ho⟩
  unfold RingPort.forwardingInProgress
  rw [ht, hf]
  exact h.progress

/-- A station on the ring may send and forward. -/
theorem RingLaw.onTheRing (h : RingLaw r on) : RingLaw r true := { h with silent := nofun }

/-- BYPASS silences the transmitter and empties the queue (R177). -/
theorem ringLaw_of_silent (ht : r.transmitter = .silent) (hf : r.forwarding = []) (hr : r.relief ≤ 8) (on : Bool) : RingLaw r on where
  room := by simp [RingPort.queuedBytes, hf]
  relief := hr
  progress := forwardingInProgress_of_other (by rw [ht]; nofun)
  silent _ := ⟨ht, hf⟩

/-- A transmitter that is not silent turns to something else than a forwarded frame, having forwarded none until then. -/
theorem RingLaw.turn (h : RingLaw r on) (ht : ∀ n, r.transmitter ≠ .sendingForwarded n) (hs : r.transmitter ≠ .silent)
    (hf : q.forwarding = r.forwarding) (hq : ∀ n, q.transmitter ≠ .sendingForwarded n) (hr : q.relief ≤ 8) : RingLaw q on where
  room := by
    have hqueued : q.queuedBytes = r.queuedBytes := congrArg (fun l => (l.map Frame.length).sum) hf
    have hroom := h.room
    rw [sentBytes_eq_zero ht] at hroom
    rw [hqueued, sentBytes_eq_zero hq]
    exact hroom
  relief := hr
  progress := forwardingInProgress_of_other hq
  silent ho := absurd (h.silent ho).1 hs

/-- A frame that fits the free space joins the queue: what is not yet sent of it grows by its length alone (R167). -/
theorem RingLaw.offer (h : RingLaw r true) {f : Frame} (hf : f.length ≤ r.freeSpace) :
    RingLaw { r with forwarding := r.forwarding ++ [f] } true where
  room := by
    have hqueued : RingPort.queuedBytes { r with forwarding := r.forwarding ++ [f] } = r.queuedBytes + f.length := by
      simp [RingPort.queuedBytes]
    have hsent : RingPort.sentBytes { r with forwarding := r.forwarding ++ [f] } = r.sentBytes := rfl
    rw [hqueued, hsent]
    have hroom := h.room
    have hfree : f.length ≤ 4096 - (r.queuedBytes - r.sentBytes) := hf
    omega
  relief := h.relief
  progress := by
    by_cases ht : ∃ n, r.transmitter = .sendingForwarded n
    · obtain ⟨n, ht⟩ := ht
      obtain ⟨g, rest, hg, hn⟩ := (forwardingInProgress_iff ht).1 h.progress
      refine (forwardingInProgress_iff (r := { r with forwarding := r.forwarding ++ [f] }) ht).2 ⟨g, rest ++ [f], ?_, hn⟩
      simp only [hg, List.cons_append]
    · exact forwardingInProgress_of_other (not_exists.1 ht)
  silent := nofun

/-- The forwarded frame in progress leaves the queue: at most its bytes had been sent (R168). -/
theorem RingLaw.dropForwarded (h : RingLaw r on) {n : Nat} (ht : r.transmitter = .sendingForwarded n) :
    RingLaw { r with forwarding := r.forwarding.tail, transmitter := .endDue } on where
  room := by
    obtain ⟨g, rest, hg, hn⟩ := (forwardingInProgress_iff ht).1 h.progress
    have hroom := h.room
    rw [sentBytes_of_forwarded ht, queuedBytes_cons hg] at hroom
    rw [sentBytes_eq_zero (by exact fun _ => nofun)]
    have hqueued : RingPort.queuedBytes { r with forwarding := r.forwarding.tail, transmitter := .endDue } =
        (rest.map Frame.length).sum := by simp [RingPort.queuedBytes, hg]
    rw [hqueued]
    omega
  relief := h.relief
  progress := rfl
  silent ho := by
    rw [(h.silent ho).1] at ht
    nomatch ht

/-- One character more of the forwarded frame in progress is sent. -/
theorem RingLaw.advance (h : RingLaw r on) {n : Nat} (ht : r.transmitter = .sendingForwarded n) {f : Frame} {rest : List Frame}
    (hf : r.forwarding = f :: rest) (hn : n + 1 ≤ f.length) (hq : q.forwarding = r.forwarding)
    (hqt : q.transmitter = .sendingForwarded (n + 1)) (hr : q.relief = r.relief) : RingLaw q on where
  room := by
    have hroom := h.room
    rw [sentBytes_of_forwarded ht] at hroom
    rw [sentBytes_of_forwarded hqt, show q.queuedBytes = r.queuedBytes from congrArg (fun l => (l.map Frame.length).sum) hq]
    omega
  relief := hr ▸ h.relief
  progress := (forwardingInProgress_iff hqt).2 ⟨f, rest, hq.trans hf, hn⟩
  silent ho := by
    rw [(h.silent ho).1] at ht
    nomatch ht

/-- The choice at a frame boundary: a forwarded frame is chosen from a queue that holds one, and none of it has been sent (R173). -/
theorem ringLaw_chosen {s : State} (h : RingLaw s.ring on) (hb : atBoundary s.ring.transmitter = true) : RingLaw s.chosen on := by
  have ht : ∀ n, s.ring.transmitter ≠ .sendingForwarded n := fun n hn => by rw [hn] at hb; nomatch hb
  have hs : s.ring.transmitter ≠ .silent := fun hn => by rw [hn] at hb; nomatch hb
  unfold State.chosen
  split
  · exact h.turn ht hs rfl nofun (Nat.zero_le 8)
  · rename_i hc
    obtain ⟨f, rest, hf⟩ : ∃ f rest, s.ring.forwarding = f :: rest := by
      unfold State.choice at hc
      split at hc
      · nomatch hc
      · exact ⟨_, _, by assumption⟩
      · exact ⟨_, _, by assumption⟩
      · nomatch hc
    have hroom := h.room
    rw [sentBytes_eq_zero ht] at hroom
    refine ⟨hroom, ?_, (forwardingInProgress_iff rfl).2 ⟨f, rest, hf, Nat.zero_le _⟩, fun ho => absurd (h.silent ho).1 hs⟩
    dsimp only
    split
    · exact h.relief
    · exact Nat.min_le_left 8 _
  · exact h.turn ht hs rfl nofun h.relief

end RingLaw

/-! ### What leaves the buffers alone -/

/-- The laws of the forwarding queue, the relief counter and the assembly buffer. -/
structure Buffered (s : State) : Prop where
  ring     : RingLaw s.ring s.station.state.onRing
  assembly : s.host.assembly.within = true

theorem buffered_iff (s : State) : Buffered s ↔ s.forwardingWithinLimits ∧ s.host.assembly.within = true := by
  rw [forwardingWithinLimits_iff]
  exact ⟨fun h => ⟨h.ring, h.assembly⟩, fun h => ⟨h.1, h.2⟩⟩

/-- The service of waiting slots touches neither the ring nor the host port. -/
theorem Buffered.served {s t : State} (h : Buffered s) (hst : Served s t) : Buffered t := by
  refine ⟨?_, ?_⟩
  · rw [hst.ring, hst.station]
    exact h.ring
  · rw [hst.host]
    exact h.assembly

/-- A silent transmitter, an empty forwarding queue and an assembly buffer as it was (R177). -/
theorem buffered_of_silent {s : State} (ht : s.ring.transmitter = .silent) (hf : s.ring.forwarding = []) (hr : s.ring.relief = 0)
    (ha : s.host.assembly.within = true) : Buffered s :=
  ⟨ringLaw_of_silent ht hf (by rw [hr]; exact Nat.zero_le 8) _, ha⟩

theorem buffered_holdReset (a b : Bool) (n : Nat) (s : State) : Buffered (s.holdReset a b n) := buffered_of_silent rfl rfl rfl rfl
theorem buffered_releaseReset (x : StationAddr) (s : State) : Buffered (s.releaseReset x) := buffered_of_silent rfl rfl rfl rfl

section Buffered
variable {s : State} (h : Buffered s)
include h

theorem Buffered.reexamine (w : Work) : Buffered (s.reexamine w) := h.served (.reexamine w s)
omit h in
theorem Buffered.reexamined {p : State × Work} (hp : Buffered p.1) : Buffered (Machine.reexamined p) := hp.reexamine p.2
theorem Buffered.mapLease (f : LeaseTable → LeaseTable) : Buffered (s.mapLease f) := ⟨h.ring, h.assembly⟩
theorem Buffered.mapTable (f : RequestTable → RequestTable) : Buffered (s.mapTable f) := ⟨h.ring, h.assembly⟩
theorem Buffered.mapRoll (f : RollUnit → RollUnit) : Buffered (s.mapRoll f) := ⟨h.ring, h.assembly⟩
theorem Buffered.finish (i : SlotIx) (st : Status) (c : Content) : Buffered (s.finish i st c) := ⟨h.ring, h.assembly⟩
theorem Buffered.enqueue (b : Body) (o : Option SlotIx) : Buffered (s.enqueue b o) := ⟨h.ring, h.assembly⟩
theorem Buffered.setRefused : Buffered s.setRefused := ⟨h.ring, h.assembly⟩
theorem Buffered.countFormat : Buffered s.countFormat := ⟨h.ring.congr rfl rfl h.ring.relief, h.assembly⟩
theorem Buffered.countHop : Buffered s.countHop := ⟨h.ring.congr rfl rfl h.ring.relief, h.assembly⟩

/-- The station enters a state on the ring. -/
theorem Buffered.enter {st : StationState} (hst : st.onRing = true) : Buffered (s.enter st) :=
  ⟨by rw [State.enter_ring, State.enter_station]; exact hst ▸ h.ring.onTheRing, h.assembly⟩

theorem Buffered.raiseNotice (n : Notice) : Buffered (s.raiseNotice n) := by
  unfold State.raiseNotice
  split <;> exact ⟨h.ring, h.assembly⟩

theorem Buffered.raiseState (c : NoticeCause) (st : StationState) : Buffered (s.raiseState c st) := h.raiseNotice _

theorem Buffered.raiseRoster (q : Byte) (old new : List RosterEntry) : Buffered (s.raiseRoster q old new) := by
  unfold State.raiseRoster
  dsimp only
  split
  · exact h
  · exact h.raiseNotice _

theorem Buffered.arrive (l : List Byte) : Buffered (s.arrive l) := by
  unfold State.arrive
  split <;> exact ⟨h.ring.congr rfl rfl h.ring.relief, h.assembly⟩

/-! ### Rolls -/

theorem Buffered.startRollTimer : Buffered s.startRollTimer := by
  unfold State.startRollTimer
  split
  · exact h.mapRoll _
  · exact h

theorem Buffered.originate : Buffered s.originate := by
  unfold State.originate
  split
  · exact h.mapRoll _
  · exact ⟨h.ring, h.assembly⟩

theorem Buffered.originateIfNone : Buffered s.originateIfNone := by
  unfold State.originateIfNone
  split
  · exact h.originate
  · exact h

theorem Buffered.originateAfresh : Buffered (if s.mayOriginate then s.originate else s) := by
  split
  · exact h.originate
  · exact h

theorem Buffered.makeHeld : Buffered s.makeHeld := by
  unfold State.makeHeld
  split
  · split
    · exact ⟨h.ring, h.assembly⟩
    · exact h.mapRoll _
  · exact h

theorem Buffered.rollAgesOut (p : RollPhase) : Buffered (s.rollAgesOut p) := by
  unfold State.rollAgesOut
  split
  · exact (h.mapRoll _).originateAfresh
  · exact h

theorem Buffered.rosterClears : Buffered s.rosterClears := by
  unfold State.rosterClears
  split
  · dsimp only
    split
    · exact (h.mapRoll _).startRollTimer
    · exact (h.mapRoll _).originateAfresh
  · exact h

/-- A ROLL that is being sent is cut, which is no forwarded frame (R171). -/
theorem Buffered.removeRoll : Buffered s.removeRoll := by
  have hrelief : s.removeRoll.ring.relief ≤ 8 := by
    rw [removeRoll_ring]
    dsimp only
    split
    · exact Nat.zero_le 8
    · exact h.ring.relief
  refine ⟨?_, by rw [State.removeRoll_host]; exact h.assembly⟩
  rw [State.removeRoll_station]
  by_cases hcut : ∃ n g rest, s.ring.transmitter = .sendingOwn n ∧ s.outbound = g :: rest ∧ g.frame.body.isRoll = true
  · obtain ⟨n, g, rest, ht, ho, hg⟩ := hcut
    refine h.ring.turn (by rw [ht]; nofun) (by rw [ht]; nofun) (by rw [removeRoll_ring]) (fun m => ?_) hrelief
    rw [removeRoll_ring]
    dsimp only
    rw [cutTransmitter_of_roll ht ho hg]
    nofun
  · refine h.ring.congr (by rw [removeRoll_ring]) ?_ hrelief
    rw [removeRoll_ring]
    refine cutTransmitter_of_other fun n g rest ht ho => ?_
    by_contra hg
    exact hcut ⟨n, g, rest, ht, ho, by simpa using hg⟩

theorem Buffered.abandonRoll : Buffered s.abandonRoll := by
  unfold State.abandonRoll
  split
  · exact h
  · dsimp only
    split
    · exact (h.mapRoll _).removeRoll
    · exact h.mapRoll _

theorem Buffered.rollDone : Buffered s.rollDone := by
  unfold State.rollDone
  split
  · exact ((h.enter rfl).reexamine _).raiseState _ _
  · exact ((h.enter rfl).reexamine _).raiseState _ _
  all_goals exact h

theorem Buffered.completeRoll (b : RollBody) : Buffered (s.completeRoll b) :=
  ((((((((h.mapRoll _).mapLease _).reexamine _).enqueue _ _).mapRoll _).raiseRoster _ _ _).rollDone).startRollTimer)

/-! ### The station's changes -/

theorem Buffered.duplicateHalt : Buffered s.duplicateHalt := by
  rw [duplicateHalt_eq]
  exact (buffered_of_silent (s := haltedState s) rfl rfl rfl h.assembly).raiseNotice _

theorem Buffered.restart : Buffered s.restart := by
  unfold State.restart
  have hsilent : RingLaw s.assertBypass.ring true := ringLaw_of_silent rfl rfl (Nat.zero_le 8) _
  have hjoined : RingLaw s.assertBypass.releaseBypass.ring true :=
    ⟨hsilent.room, hsilent.relief, rfl, nofun⟩
  refine Buffered.raiseState ?_ _ _
  exact ⟨hjoined, h.assembly⟩

theorem Buffered.testLeaving : Buffered s.testLeaving := by
  unfold State.testLeaving
  split
  · rw [endLeaving_eq]
    exact (buffered_of_silent (s := leftState s) rfl rfl rfl h.assembly).raiseNotice _
  · exact h

theorem Buffered.leaveStep (i : SlotIx) : Buffered (s.leaveStep i) := by
  unfold State.leaveStep
  split
  · exact h.mapTable _
  · exact h.served (.releaseHold ..)

theorem Buffered.endWaiting (i : SlotIx) : Buffered (s.endWaiting i) := by
  unfold State.endWaiting
  split
  · exact h
  · split
    · exact h.served (.failAcquire ..)
    · exact h

theorem Buffered.enterLeaving (i : SlotIx) : Buffered (s.enterLeaving i) :=
  Buffered.leaveStep (foldSlots (P := Buffered) State.endWaiting (fun _ i hs => hs.endWaiting i) _ _ ((h.enter rfl).mapRoll _)) i

/-! ### Frames -/

/-- A frame is forwarded by a station on the ring (R166, R167). -/
theorem Buffered.forward (hon : s.station.state.onRing = true) (f : Frame) (b : Body) : Buffered (s.forward f b) := by
  unfold State.forward State.offerForward
  split
  · rename_i hfit
    have hring := h.ring
    rw [hon] at hring
    exact ⟨hon ▸ hring.offer hfit, h.assembly⟩
  · exact ⟨h.ring.congr rfl rfl h.ring.relief, h.assembly⟩

theorem Buffered.takeClaim (o : StationAddr) (b : ClaimBody) : Buffered (s.takeClaim o b).1 := by
  unfold State.takeClaim
  split
  · have h1 : Buffered (s.engineTakesClaim o b).1 := by
      unfold State.engineTakesClaim
      split <;> exact ⟨h.ring, h.assembly⟩
    exact (h1.mapLease _).reexamine _
  · exact h

theorem Buffered.takeSettle (o : StationAddr) (b : SettleBody) : Buffered (s.takeSettle o b) := by
  unfold State.takeSettle
  split
  · exact (h.mapLease _).reexamine _
  · exact h

theorem Buffered.takeRelease (o : StationAddr) (b : ReleaseBody) : Buffered (s.takeRelease o b) := by
  unfold State.takeRelease
  split
  · exact (h.mapLease _).reexamine _
  · exact h.mapLease _

theorem Buffered.takeRoll (o : StationAddr) (b : RollBody) : Buffered (s.takeRoll o b).1 := by
  unfold State.takeRoll
  split
  · exact h.duplicateHalt
  · split
    · exact h.countHop
    · split
      · split
        · exact h.abandonRoll
        · exact h
      · exact h

theorem Buffered.restartTimer : Buffered s.restartTimer := by
  unfold State.restartTimer
  split
  · exact h.startRollTimer
  · exact h

theorem Buffered.takeRoster (b : RosterBody) : Buffered (s.takeRoster b) := by
  unfold State.takeRoster
  split
  · exact (((((h.mapLease _).reexamine _).mapRoll _).raiseRoster _ _ _).rosterClears).restartTimer
  · exact h.rosterClears

end Buffered

/-! The station is on the ring when a frame is forwarded: its receipt leaves the station's state. -/

section Stations
variable (s : State)

theorem takeClaim_station (o : StationAddr) (b : ClaimBody) : (s.takeClaim o b).1.station = s.station := by
  unfold State.takeClaim
  split
  · refine (Served.reexamine _ _).station.trans ?_
    change (s.engineTakesClaim o b).1.station = s.station
    unfold State.engineTakesClaim
    split <;> rfl
  · rfl

theorem takeSettle_station (o : StationAddr) (b : SettleBody) : (s.takeSettle o b).station = s.station := by
  unfold State.takeSettle
  split
  · exact (Served.reexamine _ _).station
  · rfl

theorem takeRelease_station (o : StationAddr) (b : ReleaseBody) : (s.takeRelease o b).station = s.station := by
  unfold State.takeRelease
  split
  · exact (Served.reexamine _ _).station
  · rfl

theorem takeRoster_station (b : RosterBody) : (s.takeRoster b).station = s.station := by
  unfold State.takeRoster
  split
  · obtain ⟨t, x, fs, q, h, -⟩ := acceptRoster_changes b s
    rw [h]
    exact (Served.reexamine _ _).station
  · obtain ⟨fs, r, h, -⟩ := rosterClears_changes s
    rw [h]

theorem abandonRoll_station : s.abandonRoll.station = s.station := by
  unfold State.abandonRoll
  split
  · rfl
  · dsimp only
    split
    · rw [State.removeRoll_station]; rfl
    · rfl

/-- A ROLL that is forwarded did not halt the station (R119). -/
theorem takeRoll_station {o : StationAddr} {b b' : RollBody} {t : State} (h : s.takeRoll o b = (t, some b')) : t.station = s.station := by
  unfold State.takeRoll at h
  split at h
  · nomatch h
  · split at h
    · nomatch h
    · split at h
      · split at h
        · obtain ⟨rfl, -⟩ := Prod.mk.inj h
          exact abandonRoll_station s
        · nomatch h
      · obtain ⟨rfl, -⟩ := Prod.mk.inj h
        rfl

end Stations

section Receipts
variable {s : State} (h : Buffered s)
include h

theorem Buffered.takeForeign (hon : s.station.state.onRing = true) (f : Frame) : Buffered (s.takeForeign f) := by
  unfold State.takeForeign
  split
  · exact (h.takeClaim _ _).forward (by rw [takeClaim_station]; exact hon) _ _
  · exact (h.takeSettle _ _).forward (by rw [takeSettle_station]; exact hon) _ _
  · exact (h.takeRelease _ _).forward (by rw [takeRelease_station]; exact hon) _ _
  · rename_i b _
    have h1 := h.takeRoll f.origin b
    split
    · rename_i e
      rw [e] at h1
      exact h1
    · rename_i e
      rw [e] at h1
      exact h1.forward (by rw [takeRoll_station s e]; exact hon) _ _
  · exact (h.takeRoster _).forward (by rw [takeRoster_station]; exact hon) _ _
  · exact h.forward hon _ _

theorem Buffered.report (e : ClaimEntry) (o : SettleOutcome) (r : Report) : Buffered ((s.enqueueSettle e o).report e.slot r) :=
  ⟨h.ring, h.assembly⟩

theorem Buffered.claimHome (b : ClaimBody) : Buffered (s.claimHome b) := by
  unfold State.claimHome
  split
  · exact h
  · refine Buffered.reexamine ?_ _
    have h1 : Buffered { s with claim := s.claim.removeWhere (ClaimEntry.matchesReturn b) } := ⟨h.ring, h.assembly⟩
    unfold State.settleClaim
    split
    · exact h1.report ..
    · unfold State.grantClaim
      split
      · exact h1
      · exact ((h1.mapLease _).report ..).mapTable _
    · exact h1.report ..

theorem Buffered.rollHome (b : RollBody) : Buffered (s.rollHome b) := by
  unfold State.rollHome
  split
  · exact h.completeRoll b
  · split
    · unfold State.abandonedHome
      dsimp only
      split
      · exact (h.mapRoll _).startRollTimer
      · exact (h.mapRoll _).originateAfresh
    · split
      · exact h.mapRoll _
      · exact h.duplicateHalt

theorem Buffered.takeOwn (f : Frame) : Buffered (s.takeOwn f) := by
  unfold State.takeOwn
  split
  · exact h.claimHome _
  · exact h
  · exact h
  · exact h.rollHome _
  · exact h
  · unfold State.probeHome
    split <;> exact ⟨h.ring, h.assembly⟩

theorem Buffered.receive (f : Frame) : Buffered (s.receive f) := by
  unfold State.receive
  split
  · rename_i hc
    have hon : (s.arrive f.bytes).station.state.onRing = true := by
      rw [arrive_station]
      exact ((State.canReceive_iff _ _).1 hc).1
    have h1 := h.arrive f.bytes
    dsimp only
    split
    · refine Buffered.testLeaving ?_
      unfold State.judgeFrame
      split
      · exact h1.takeOwn f
      · split
        · exact h1.countHop
        · exact h1.takeForeign hon f
    · exact h1.countFormat
  · exact h

theorem Buffered.receiveBad (l : List Byte) : Buffered (s.receiveBad l) := by
  unfold State.receiveBad
  split
  · exact (h.arrive l).countFormat
  · exact h

/-! ### Requests (R141, R185) -/

theorem Buffered.handleAcquire (i : SlotIx) (c : Client) (tag g m w : Byte) (f : Option Byte) :
    Buffered (s.handleAcquire i c tag g m w f) := by
  unfold State.handleAcquire
  split
  · exact h.finish ..
  · split
    · exact h.finish ..
    · split
      · exact h.finish ..
      · split
        · exact (h.mapTable _).finish ..
        · exact ((h.mapTable _).served (.examine ..)).reexamine _

theorem Buffered.handleRelease (i : SlotIx) (c : Client) (g : Byte) (note : List Byte) : Buffered (s.handleRelease i c g note) := by
  unfold State.handleRelease
  split
  · exact h.finish ..
  · split
    · exact (h.mapTable _).finish ..
    · split
      · split
        · exact h
        · exact (h.served (.releaseHold ..)).reexamine _
      · exact (h.mapLease _).finish ..

theorem Buffered.handleCancel (i : SlotIx) (c : Client) (g : Byte) : Buffered (s.handleCancel i c g) := by
  unfold State.handleCancel
  split
  · exact h.finish ..
  · split
    · exact h.finish ..
    · split
      · split
        · exact ((h.served (.failAcquire ..)).finish ..).reexamine _
        · exact h.finish ..
      all_goals exact ⟨h.ring, h.assembly⟩

/-- The release of BYPASS: a station off the ring had an empty forwarding queue (R141, R177). -/
theorem Buffered.handleConfigure (hs : s.station.state = .unconfigured) (i : SlotIx) (c : Configuration) :
    Buffered (s.handleConfigure i c) := by
  unfold State.handleConfigure
  split
  · obtain ⟨-, hempty⟩ := h.ring.silent (by rw [hs]; rfl)
    have hjoined : RingLaw { s.ring with transmitter := .idle } true :=
      ⟨by simp [RingPort.queuedBytes, hempty], h.ring.relief, rfl, nofun⟩
    refine Buffered.raiseState ?_ _ _
    exact ⟨hjoined, h.assembly⟩
  · exact h.finish ..

/-- A request that proceeds; a CONFIGURE does in UNCONFIGURED alone (R80). -/
theorem Buffered.handle {r : Request} (hd : disposition r.kind s.station.state = .proceeds) (i : SlotIx) (c : Client) (tag : Byte) :
    Buffered (s.handle i c tag r) := by
  cases r with
  | configure interval units retry =>
    refine h.handleConfigure ?_ i _
    cases hs : s.station.state with
    | unconfigured => rfl
    | _ => rw [hs] at hd; nomatch hd
  | acquire g m w f => exact h.handleAcquire ..
  | release g note => exact h.handleRelease ..
  | cancel target => exact h.handleCancel ..
  | query g => unfold State.handle State.handleQuery; dsimp only; split <;> exact h.finish ..
  | stats => exact ⟨h.ring.congr rfl rfl h.ring.relief, h.assembly⟩
  | clearFault => exact (h.mapTable _).finish ..
  | leave => exact (h.enterLeaving i).testLeaving
  | restart => exact h.finish ..

theorem Buffered.commit (k : RequestKind) (r : HostRecord) : Buffered (s.commit k r) := by
  have h1 : Buffered { s with host := { s.host with assembly := .empty } } := ⟨h.ring, rfl⟩
  unfold State.commit
  dsimp only
  split
  · exact h1.setRefused
  · split
    · exact h1.restart
    · unfold State.offerRequest
      split
      · exact h1.setRefused
      · dsimp only
        split
        · rename_i hd
          exact Buffered.handle (h1.mapTable _) hd ..
        · exact (h1.mapTable _).finish ..
        · exact (h1.mapTable _).finish ..

omit h in
/-- A committed record leaves the buffer EMPTY, whatever it held before (R186). -/
theorem buffered_commitBytes (h : RingLaw s.ring s.station.state.onRing) (stored : List Byte) (declared : Byte) :
    Buffered (s.commitBytes stored declared) := by
  unfold State.commitBytes
  split
  · exact ⟨h, rfl⟩
  · exact Buffered.commit (s := { s with host := { s.host with assembly := .empty } }) ⟨h, rfl⟩ _ _

omit h in
theorem within_counting_iff (stored : List Byte) (declared : Byte) (count : Nat) :
    (Assembly.counting stored declared count).within = true ↔ stored.length = min count 40 ∧ 2 ≤ count ∧ count < declared.toNat := by
  unfold Assembly.within
  rw [Bool.and_eq_true, Bool.and_eq_true, decide_eq_true_iff, decide_eq_true_iff, decide_eq_true_iff, and_assoc]
  exact Iff.rfl

/-- The buffer stores the first 40 bytes of a record, and counts below its declared length (R185). -/
theorem Buffered.requestByte (b : Byte) : Buffered (s.requestByte b) := by
  unfold State.requestByte
  split
  · exact ⟨h.ring, rfl⟩
  · split
    · exact buffered_commitBytes h.ring ..
    · exact ⟨h.ring, (within_counting_iff ..).2 ⟨rfl, Nat.le_refl 2, by omega⟩⟩
  · rename_i stored declared count hs
    have hwithin := h.assembly
    rw [hs, within_counting_iff] at hwithin
    obtain ⟨hlength, htwo, hcount⟩ := hwithin
    dsimp only
    split
    · exact buffered_commitBytes h.ring ..
    · refine ⟨h.ring, (within_counting_iff ..).2 ⟨?_, by omega, by omega⟩⟩
      by_cases hroom : count < 40
      · rw [if_pos (show count < Config.assemblyBytes from hroom), List.length_append, hlength, List.length_singleton]
        omega
      · rw [if_neg (show ¬ count < Config.assemblyBytes from hroom), hlength]
        omega

theorem Buffered.readCompletion (first : Bool) : Buffered (s.readCompletion first) := by
  unfold State.readCompletion
  split
  · exact ⟨h.ring, h.assembly⟩
  · unfold State.advanceRead
    split <;> exact ⟨h.ring, h.assembly⟩

theorem Buffered.statusWrite (b : Byte) : Buffered (s.statusWrite b) := by
  refine ⟨h.ring, ?_⟩
  change (if b.getLsbD 7 then Assembly.empty else s.host.assembly).within = true
  split
  · rfl
  · exact h.assembly

theorem Buffered.probeWrite : Buffered s.probeWrite := by
  unfold State.probeWrite
  split <;> exact ⟨h.ring, h.assembly⟩

/-! ### The transmitter -/

theorem Buffered.chooses (hb : atBoundary s.ring.transmitter = true) : Buffered s.choose := ⟨ringLaw_chosen h.ring hb, h.assembly⟩

theorem Buffered.transmitChoice : Buffered s.transmitChoice := by
  unfold State.transmitChoice
  split
  · exact h
  · rename_i ht
    exact h.chooses (by rw [ht]; rfl)
  · rename_i ht
    exact h.chooses (by rw [ht]; rfl)
  · exact h
  · rename_i ht
    exact Buffered.chooses (s := s.dropForwarded) ⟨h.ring.dropForwarded ht, h.assembly⟩ rfl
  · rename_i ht
    exact h.chooses (by rw [ht]; rfl)

/-- The choice at the end of a change is an idle transmitter's (R173). -/
theorem Buffered.startIdle (b : State) : Buffered (s.startIdle b) := by
  unfold State.startIdle
  split
  · rename_i hc
    have ht : s.ring.transmitter = .idle := of_decide_eq_true ((Bool.and_eq_true _ _).mp hc).2
    exact h.chooses (by rw [ht]; rfl)
  · exact h

/-- An own frame has been sent: END is due, and the relief counter is cleared with the last frame (R170, R172). -/
theorem Buffered.dequeueSent {n : Nat} (ht : s.ring.transmitter = .sendingOwn n) : Buffered s.dequeueSent := by
  rw [State.dequeueSent, clearRelief_eq]
  refine ⟨h.ring.turn (by rw [ht]; nofun) (by rw [ht]; nofun) rfl nofun ?_, h.assembly⟩
  dsimp only
  split
  · exact Nat.zero_le 8
  · exact h.ring.relief

/-- The report of a sent own frame keeps the laws where its maker does. -/
theorem Buffered.ownSent (kind : Byte) {report : OwnFrame → State → State} (hreport : ∀ f t, Buffered t → Buffered (report f t)) :
    Buffered (s.ownSent kind report) := by
  unfold State.ownSent
  split
  · rename_i ht _
    split
    · exact (hreport _ _ (h.dequeueSent ht)).testLeaving
    · exact h
  · exact h

omit h in
theorem buffered_reportClaim (f : OwnFrame) (t : State) (ht : Buffered t) : Buffered (t.reportClaim f) := by
  unfold State.reportClaim
  split <;> exact ⟨ht.ring, ht.assembly⟩

theorem Buffered.settled (i : SlotIx) : Buffered (s.settled i).1 := by
  have hretry : Buffered (s.retry i).1 := by
    unfold State.retry
    split
    · exact h.served (.failAcquire ..)
    · exact h.mapTable _
  have hchain : Buffered (s.chain i).1 := by
    unfold State.chain
    split
    · exact (h.mapTable _).served (.failAcquire ..)
    · exact h.mapTable _
  have hsucceed := h.served (.succeedAcquire s i)
  have hfail := fun st => h.served (.failAcquire s i st)
  unfold State.settled
  split
  · exact h
  · split
    · split
      · exact h
      · unfold State.settleRow
        split
        · split
          · exact hsucceed
          · split
            · exact hchain
            · exact hsucceed
        · split
          · exact hretry
          · exact hfail _
        · split
          · exact hfail _
          · exact hretry
        · exact hfail _
        · exact hfail _
    · exact h

omit h in
theorem buffered_reportSettle (f : OwnFrame) (t : State) (ht : Buffered t) : Buffered (t.reportSettle f) := by
  unfold State.reportSettle
  split
  · exact ht
  · exact (ht.settled _).reexamine _

omit h in
theorem buffered_reportRelease (f : OwnFrame) (t : State) (ht : Buffered t) : Buffered (t.reportRelease f) := by
  unfold State.reportRelease
  split
  · dsimp only
    split
    · exact (ht.mapLease _).reexamine _
    · unfold State.released
      split
      · exact (ht.mapLease _).reexamine _
      · split
        · exact ((ht.mapLease _).reexamine _).leaveStep _
        · exact ((ht.mapLease _).reexamine _).mapTable _
  · exact ht

/-! ### Link status and timers -/

theorem Buffered.reportUp : Buffered s.reportUp := by
  unfold State.reportUp
  split
  · have h1 : Buffered s.linkComesUp := ⟨h.ring.congr rfl rfl h.ring.relief, h.assembly⟩
    unfold State.stationLinkUp
    split
    · exact h1.originateIfNone.raiseState _ _
    · exact (h1.enter rfl).originateIfNone.raiseState _ _
    · exact h1.raiseState _ _
    all_goals exact h1
  · exact h

theorem Buffered.reportDown : Buffered s.reportDown := by
  unfold State.reportDown
  split
  · have h1 : Buffered s.linkGoesDown := by
      unfold State.linkGoesDown
      dsimp only
      split <;> exact ⟨h.ring.congr rfl rfl h.ring.relief, h.assembly⟩
    unfold State.stationLinkDown
    split
    · exact h1.raiseState _ _
    · exact ((h1.enter rfl).mapRoll _).raiseState _ _
    · exact (h1.enter rfl).raiseState _ _
    · exact h1.raiseState _ _
    all_goals exact h1
  · exact h

theorem Buffered.circuitExpires (q : Byte) : Buffered (s.circuitExpires q) := by
  unfold State.circuitExpires
  split
  · exact h
  · have h1 : Buffered { s with claim := s.claim.removeWhere (ClaimEntry.timedOut s.tCTO q) } := ⟨h.ring, h.assembly⟩
    exact ((h1.report ..).reexamine _).testLeaving

theorem Buffered.intentExpires (k : Resource) (x : StationAddr) : Buffered (s.intentExpires k x) := by
  unfold State.intentExpires
  split
  · exact (h.mapLease _).reexamine _
  · exact h

theorem Buffered.rollTimerExpires : Buffered s.rollTimerExpires := by
  unfold State.rollTimerExpires
  split
  · exact h.originate
  · exact h

theorem Buffered.retiredExpires : Buffered s.retiredExpires := by
  unfold State.retiredExpires
  split
  · exact h.mapRoll _
  · exact h

/-! ### Commands, time and steps -/

theorem Buffered.effect (c : Instr) : Buffered (effect c s) := by
  cases c with
  | requestAssemblyByte b y => exact h.requestByte b
  | configure r | acquire r | release r | cancel r | query r | stats r | clearFault r | leave r | restart r => exact h.commit _ r
  | completionRead first y => exact h.readCompletion first
  | abandon | clearRefused | clearNoticeLost | clearProbeDone | clearProbeBusy => exact h.statusWrite _
  | probe b y => exact h.probeWrite
  | framingDiscard c =>
    obtain ⟨_, _, hc⟩ := s.discardFraming_changes c
    change Buffered (s.discardFraming c)
    rw [hc]
    exact ⟨h.ring.congr rfl rfl h.ring.relief, h.assembly⟩
  | formatDiscard l => exact h.receiveBad l
  | claimReceipt | settleReceipt | releaseReceipt | rollReceipt | rosterReceipt | probeForward | ownClaimReturn | ownRollReturn
  | ownProbeReturn | ownFrameStripped => exact h.receive _
  | transmitChoice => exact h.transmitChoice
  | claimTransmitted => exact h.ownSent _ buffered_reportClaim
  | settleTransmitted => exact h.ownSent _ buffered_reportSettle
  | releaseTransmitted => exact h.ownSent _ buffered_reportRelease
  | rollTransmitted => exact h.ownSent _ (fun _ _ ht => ht.mapRoll _)
  | rosterTransmitted => exact h.ownSent _ (fun _ _ ht => ht.makeHeld)
  | probeTransmitted => exact h.ownSent _ (fun _ _ ht => ⟨ht.ring, ht.assembly⟩)
  | heldOrigination => exact h.makeHeld
  | linkUp => exact h.reportUp
  | linkDown => exact h.reportDown
  | circuitTimeout q => exact h.circuitExpires q
  | intentExpiry k x => exact h.intentExpires k x
  | rollTimerExpiry => exact h.rollTimerExpires
  | rollLost | abandonedRollExpiry => exact h.rollAgesOut _
  | retiredRollExpiry => exact h.retiredExpires
  | probeTimeout =>
    change Buffered s.probeExpires
    unfold State.probeExpires
    split <;> exact ⟨h.ring, h.assembly⟩
  | endOfLeaving => exact h.testLeaving
  | frameStart =>
    change Buffered s.startFrame
    unfold State.startFrame
    split
    · exact ⟨h.ring.congr rfl rfl h.ring.relief, h.assembly⟩
    · exact h
  | _ => exact ⟨h.ring, h.assembly⟩

theorem Buffered.exec {c : Instr} {t : State} (ht : exec c s = .next t) : Buffered t := by
  cases hp : isPower c with
  | true =>
    rcases exec_power hp ht with rfl | ⟨a, b, n, rfl⟩ | ⟨x, rfl⟩ | ⟨x, a, b, n, rfl⟩
    · exact h
    · exact buffered_holdReset a b n s
    · exact buffered_releaseReset x s
    · exact ⟨h.ring, h.assembly⟩
  | false =>
    rcases exec_outcome hp ht with rfl | rfl | rfl | rfl
    · exact h
    · exact ⟨h.ring, h.assembly⟩
    · exact h.effect c
    · exact (h.effect c).startIdle s

omit h in
/-- The transmitter's character: a forwarded frame goes on, or leaves the queue with its last byte (R158, R168). -/
theorem ringLaw_transmitChar {on : Bool} (h : RingLaw s.ring on) : RingLaw s.transmitChar.ring on := by
  unfold State.transmitChar
  split
  case h_1 ht => exact h.congr rfl ht.symm h.relief
  case h_2 ht => exact h.turn (by rw [ht]; nofun) (by rw [ht]; nofun) rfl nofun h.relief
  case h_3 ht => exact h.turn (by rw [ht]; nofun) (by rw [ht]; nofun) rfl nofun h.relief
  case h_4 ht => split <;> exact h.turn (by rw [ht]; nofun) (by rw [ht]; nofun) rfl nofun h.relief
  case h_5 n ht =>
    obtain ⟨g, rest, hg, hn⟩ := (forwardingInProgress_iff ht).1 h.progress
    simp only [hg]
    split
    · exact (h.dropForwarded ht).congr rfl rfl h.relief
    · exact h.advance ht hg (by omega) rfl rfl rfl
  case h_6 ht => exact h.turn (by rw [ht]; nofun) (by rw [ht]; nofun) rfl nofun h.relief

theorem Buffered.characterTime : Buffered s.characterTime := by
  obtain ⟨r, hr⟩ := s.characterTime_changes
  obtain ⟨x, p, hmicro⟩ := s.tickMicro_changes
  refine ⟨?_, by rw [hr, hmicro]; exact h.assembly⟩
  obtain ⟨hring, -, -, hstate⟩ := s.transmitter_ticked
  obtain ⟨_, _, _, hsent⟩ := s.tickCharacter.countProcessing.transmitChar_changes
  obtain ⟨_, _, _, _, _, hreceived⟩ := s.tickCharacter.countProcessing.transmitChar.receiveChar_changes
  have hticked : RingLaw s.tickCharacter.countProcessing.ring s.station.state.onRing := by
    rw [hring]
    exact h.ring.congr rfl rfl h.ring.relief
  have hlaw := ringLaw_transmitChar hticked
  have hon : s.characterTime.station.state = s.station.state := by
    unfold State.characterTime
    rw [hreceived, hsent]
    exact hstate
  rw [hon]
  unfold State.characterTime
  rw [hreceived]
  exact hlaw.congr rfl rfl hlaw.relief

/-- Every step keeps the laws of the forwarding queue, the relief counter and the assembly buffer. -/
theorem Buffered.step {t : State} (ht : step s = .next t) : Buffered t := by
  unfold Machine.step at ht
  split at ht
  · rw [← Host.Outcome.next.inj ht]
    unfold State.idleStep
    split
    · unfold State.resetStep
      split
      · split <;> exact ⟨h.ring, h.assembly⟩
      · exact h
    · split
      · exact ⟨h.ring, h.assembly⟩
      · exact h.characterTime
  · rename_i c rest _
    exact Buffered.exec (s := { s with pending := rest }) ⟨h.ring, h.assembly⟩ ht

end Receipts

end Sys2Proof.BufferProofs

/-! ## The buffers keep within their limits (O57) -/

namespace Sys2Proof.LimitProofs
open Sys2Proof.Machine Sys2Proof.Statement Sys2Proof.BufferProofs Sys2Proof.OutboundProofs

/-- Settles O57, by the law of the buffers (`Buffered`) and the law of the Outbound Queue and its makers
(`InStep`): each is kept by every step, and each is what the obligation asks. -/
theorem stepKeepsBuffersWithinLimits : Obligations.StepKeepsBuffersWithinLimits :=
  ⟨fun s t hforwarding hassembly ht => (buffered_iff t).1 (((buffered_iff s).2 ⟨hforwarding, hassembly⟩).step ht),
   fun s t hholds hlawful ht => (outboundLawful_iff t).2 (((outboundLawful_iff s).1 hlawful).step hholds ht),
   fun s hlawful => ⟨outbound_length_le ((outboundLawful_iff s).1 hlawful), outbound_owner_le ((outboundLawful_iff s).1 hlawful)⟩⟩

end Sys2Proof.LimitProofs

/-! ## Probe accesses and the strobes of port cycles (O26) -/

namespace Sys2Proof.PortProofs
open Sys2Proof.Machine Sys2Proof.Statement Sys2Proof.StationProofs

/-! ### Strobes (R212) -/

theorem not_strobe_wf_of_short {y : Strobe} (h : y.lowNs < 60) : y.wf = false := decide_eq_false (Nat.not_le.2 h)

/-- In each of its cycles the command is a write of one effect (R184, R212). -/
def WritesBy (f : State → State) (c : Instr) : Prop := ∀ y d, cycle y c = some d → ∀ s, exec d s = s.runWrite y f

/-- In each of its cycles the command is a read of one effect (R184, R212). -/
def ReadsBy (f : State → State) (c : Instr) : Prop :=
  ∀ y d, cycle y c = some d → isRead d = (y.wf && !y.both) ∧ ∀ s, exec d s = s.runRead y f

/-- The strobe of a port cycle does not enter its effect. -/
theorem cycles_writeBy_or_readBy (c : Instr) : isRead c = false ∧ WritesBy (effect c) c ∨ ReadsBy (effect c) c := by
  cases c with
  | completionRead | probeTimeLoRead => exact .inr fun y d hd => Option.some.inj hd ▸ ⟨rfl, fun s => rfl⟩
  | requestAssemblyByte | abandon | clearRefused | clearNoticeLost | clearProbeDone | clearProbeBusy | intmaskWrite | probe
  | ignoredWrite => exact .inl ⟨rfl, fun y d hd => Option.some.inj hd ▸ fun s => rfl⟩
  | _ => exact .inl ⟨rfl, fun y d hd => nomatch hd⟩

theorem runRead_short {s : State} {y : Strobe} (f : State → State) (hy : y.wf = false) : s.runRead y f = .next s := by
  simp [State.runRead, hy]

theorem runRead_both {s : State} {y : Strobe} (f : State → State) (hy : y.both = true) : s.runRead y f = .next s := by
  simp [State.runRead, hy]

/-- A strobe of less than 60 ns is not taken (R212). -/
theorem exec_cycle_short {c d : Instr} {y : Strobe} (h : cycle y c = some d) (hy : y.lowNs < 60) (s : State) : exec d s = .next s := by
  rcases cycles_writeBy_or_readBy c with ⟨-, hwrites⟩ | hreads
  · rw [hwrites y d h, State.runWrite_short s y _ (not_strobe_wf_of_short hy)]
  · rw [(hreads y d h).2, runRead_short _ (not_strobe_wf_of_short hy)]

/-- A longer strobe has the effect of the shortest (R212). -/
theorem exec_cycle_long {c d : Instr} {y : Strobe} (h : cycle y c = some d) (hy : taken y) (hboth : isRead c = true → y.both = false)
    (hshortest : cycle .shortest c = some c) (s : State) : exec d s = exec c s := by
  have hwf : y.wf = true := strobe_wf_of_taken hy
  have hwf' : Strobe.shortest.wf = true := rfl
  rcases cycles_writeBy_or_readBy c with ⟨-, hwrites⟩ | hreads
  · rw [hwrites y d h, hwrites _ c hshortest, State.runWrite, State.runWrite, if_pos hwf, if_pos hwf']
  · obtain ⟨hread, hexec⟩ := hreads _ c hshortest
    rw [(hreads y d h).2, hexec, State.runRead, State.runRead, hwf, hboth hread]
    rfl

/-- RD and WR low together are no read (R212). -/
theorem exec_cycle_both {c d : Instr} {y : Strobe} (h : cycle y c = some d) (hread : isRead c = true) (hy : y.both = true) (s : State) :
    exec d s = .next s := by
  rcases cycles_writeBy_or_readBy c with ⟨hwrite, -⟩ | hreads
  · rw [hwrite] at hread; cases hread
  · rw [(hreads y d h).2, runRead_both _ hy]

/-! ### The probe (R179, R183, R197) -/

theorem loByte_toNat (h : Half) : (loByte h).toNat = h.toNat % 256 := BitVec.toNat_ofNat ..

theorem hiByte_toNat (h : Half) : (hiByte h).toNat = h.toNat / 256 := by
  have := h.isLt
  rw [hiByte, BitVec.toNat_ofNat, Nat.mod_eq_of_lt (by omega)]

theorem identByte_toNat (s : State) : s.identByte.toNat = s.station.address.val + 16 * s.station.state.code := by
  have haddress := s.station.address.isLt
  have hcode : s.station.state.code ≤ 6 := by cases s.station.state <;> decide
  rw [State.identByte, BitVec.toNat_ofNat, Nat.mod_eq_of_lt (by omega)]

theorem acceptsProbe_iff (s : State) :
    s.acceptsProbe = true ↔ s.station.state ≠ .unconfigured ∧ s.station.state ≠ .halted ∧ s.probe.phase = .idle := by
  have hring : s.station.state.onRing = true ↔ s.station.state ≠ .unconfigured ∧ s.station.state ≠ .halted := by
    cases s.station.state <;> simp [StationState.onRing]
  rw [State.acceptsProbe, Bool.and_eq_true, hring, decide_eq_true_iff, and_assoc]

/-- Settles O26: the accesses of the probe one by one, then the strobes over all port cycles. -/
theorem probePortAccesses : Obligations.ProbePortAccesses := by
  refine ⟨fun y s hr hy => ⟨fun hb => ?timeRead, fun a b => ?ignored⟩, fun b y s hr hy => ⟨fun h => ?queues, fun h => ?refused⟩,
    fun s hr => ?reads, fun c d y s hd => ⟨fun hy => exec_cycle_short hd hy s,
      fun hy hboth hc => exec_cycle_long hd hy hboth hc s, fun hread hboth => exec_cycle_both hd hread hboth s⟩⟩
  case timeRead =>
    exact ⟨_, _, exec_probeTimeLoRead y s hr (strobe_wf_of_taken hy) hb, loByte_toNat .., hiByte_toNat ..⟩
  case ignored => exact exec_ignoredWrite a b y s hr (strobe_wf_of_taken hy)
  case queues =>
    have hwrite : s.probeWrite = { s.enqueue (.probe (s.probe.sequence + 1)) none with
        probe := { s.probe with sequence := s.probe.sequence + 1, done := false, phase := .queued } } :=
      if_pos ((acceptsProbe_iff s).2 h)
    rw [exec_probe b y s hr (strobe_wf_of_taken hy), hwrite]
  case refused =>
    have hwrite : s.probeWrite = { s with probe := { s.probe with busy := true } } := if_neg (mt (acceptsProbe_iff s).1 h)
    rw [exec_probe b y s hr (strobe_wf_of_taken hy), hwrite]
    exact congrArg Host.Outcome.next (State.startIdle_quiet _ s rfl rfl)
  case reads =>
    simp only [portRead, hr, Bool.false_eq_true, if_false]
    refine ⟨trivial, trivial, trivial, loByte_toNat .., (identByte_toNat s).trans ?_⟩
    cases s.station.state <;> rfl

end Sys2Proof.PortProofs

/-! ## The receive link: framing, discards and counts (O27) -/

namespace Sys2Proof.FramingProofs
open Sys2Proof.Machine Sys2Proof.Statement Sys2Proof.LeaseProofs Sys2Proof.RollProofs

theorem countFormat_eq (s : State) : s.countFormat = { s with ring := { s.ring with formatCount := raised s.ring.formatCount } } := by
  rw [State.countFormat, saturatingSucc_eq]

/-! ### Framing commands (R159) -/

section Framing
variable {s : State}

theorem startFrame_of_hunting (hup : s.ring.linkUp = true) (hr : s.ring.receiver = .hunting) :
    s.startFrame = { s with ring := { s.ring with receiver := .inFrame [] } } := by
  simp [State.startFrame, hup, hr]

theorem startFrame_of_inFrame {bytes : List Byte} (hr : s.ring.receiver = .inFrame bytes) : s.startFrame = s := by
  simp [State.startFrame, hr]

theorem discardFraming_of_hunting (hr : s.ring.receiver = .hunting) (c : FramingCause) : s.discardFraming c = s := by
  simp only [State.discardFraming, hr]

theorem discardFraming_of_inFrame {bytes : List Byte} (hup : s.ring.linkUp = true) (hr : s.ring.receiver = .inFrame bytes)
    (c : FramingCause) :
    s.discardFraming c = { s with ring := { s.ring with receiver := afterDiscard c, formatCount := raised s.ring.formatCount } } := by
  simp only [State.discardFraming, hr, hup, if_true, countFormat_eq]

theorem afterDiscard_of_ne_start {c : FramingCause} (h : c ≠ .start) : afterDiscard c = .hunting := by
  cases c with
  | start => exact absurd rfl h
  | idle | violation | growth => rfl

end Framing

/-! ### Frames that fail the format check (R162) -/

/-- What is counted after an arrival is counted from what stood before it. -/
theorem countFormat_arrive (l : List Byte) (s : State) :
    (s.arrive l).countFormat = { s with ring := { (s.arrive l).ring with formatCount := raised s.ring.formatCount } } := by
  obtain ⟨x, p, ha⟩ := arrive_changes l s
  rw [countFormat_eq, ha]

theorem receiveBad_of_receives {bytes : List Byte} {s : State} (h : receives bytes s) (hf : parseFrame bytes = none) :
    s.receiveBad bytes = (s.arrive bytes).countFormat :=
  if_pos ⟨(State.canReceive_iff ..).2 h.2, hf⟩

/-! ### One character (R159, R163) -/

/-- What the receiver holds, the frames in processing time, and the format counter. -/
def Frames (r : RingPort) (x : Receiver) (waiting : List Arrived) (n : Half) : Prop :=
  r.receiver = x ∧ r.processing = waiting ∧ r.formatCount = n

section Character
variable {s : State} {waiting : List Arrived} {n : Half} {bytes : List Byte}

/-- HUNTING, a START begins a frame and everything else is let pass. -/
theorem frames_hunting (hup : s.ring.linkUp = true) (h : Frames s.ring .hunting waiting n) (c : LinkChar) :
    Frames (s.frameCharacter c).ring (if c = .start then .inFrame [] else .hunting) waiting n := by
  by_cases hc : c = .start
  · have hstarts : s.frameCharacter c = s.startFrame := by
      simp only [State.frameCharacter, h.1, hc]
    rw [if_pos hc, hstarts, startFrame_of_hunting hup h.1]
    exact ⟨rfl, h.2⟩
  · have hstill : s.frameCharacter c = s := by
      simp only [State.frameCharacter, h.1]
    rw [if_neg hc, hstill]
    exact h

section InFrame
variable (h : Frames s.ring (.inFrame bytes) waiting n)
include h

/-- A byte IN FRAME that the frame has room for. -/
theorem frames_data (b : Byte) (hroom : bytes.length < 361) :
    Frames (s.frameCharacter (.data b)).ring (.inFrame (bytes ++ [b])) waiting n := by
  simp only [State.frameCharacter, h.1]
  rw [State.frameByte, if_pos (show bytes.length < Config.longestFrame from hroom)]
  exact ⟨rfl, h.2⟩

/-- The END of a frame, from which its processing time runs. -/
theorem frames_endChar :
    Frames (s.frameCharacter .endChar).ring .hunting (waiting ++ [{ bytes := bytes, left := 12 }]) n := by
  simp only [State.frameCharacter, h.1]
  exact ⟨rfl, congrArg (· ++ _) h.2.1, h.2.2⟩

theorem frames_silence : Frames (s.frameCharacter .silence).ring (.inFrame bytes) waiting n := by
  simp only [State.frameCharacter, h.1]
  exact h

/-- A character that discards the frame. -/
theorem frames_discarded (hup : s.ring.linkUp = true) {c : LinkChar} {cause : FramingCause}
    (hc : s.frameCharacter c = s.discardFraming cause) : Frames (s.frameCharacter c).ring (afterDiscard cause) waiting (raised n) := by
  obtain ⟨hr, hp, hn⟩ := h
  rw [hc, discardFraming_of_inFrame hup hr]
  exact ⟨rfl, hp, congrArg raised hn⟩

/-- A byte IN FRAME past the longest frame. -/
theorem frameCharacter_grown (b : Byte) (hfull : 361 ≤ bytes.length) : s.frameCharacter (.data b) = s.discardFraming .growth := by
  simp only [State.frameCharacter, h.1]
  exact if_neg (Nat.not_lt.2 hfull)

theorem frameCharacter_idle : s.frameCharacter .idle = s.discardFraming .idle := by simp only [State.frameCharacter, h.1]

theorem frameCharacter_violation : s.frameCharacter .violation = s.discardFraming .violation := by
  simp only [State.frameCharacter, h.1]

theorem frameCharacter_start : s.frameCharacter .start = s.discardFraming .start := by simp only [State.frameCharacter, h.1]

end InFrame

end Character

/-! ### One character time (R159, R163) -/

/-- The frames in processing time after one more character time (R163). -/
def waitingOn (s : State) : List Arrived := s.ring.processing.map (fun a => { a with left := a.left - 1 })

/-- The state whose receiver takes the character of a character time. -/
theorem characterTime_receiver (s : State) : ∃ v : State, s.characterTime = v.receiveChar ∧ v.station.state = s.station.state ∧
    v.ring.linkUp = s.ring.linkUp ∧ v.nextChar = arriving s ∧ Frames v.ring s.ring.receiver (waitingOn s) s.ring.formatCount := by
  obtain ⟨hring, -, hline, hstate⟩ := State.transmitter_ticked s
  obtain ⟨x, c, f, hsent⟩ := State.transmitChar_changes s.tickCharacter.countProcessing
  refine ⟨_, rfl, ?_⟩
  rw [nextChar_eq, arriving, hsent, hring, hline]
  exact ⟨hstate, rfl, rfl, rfl, rfl, rfl⟩

/-- Off the ring, or with the link DOWN, the receiver takes no character. -/
theorem frames_characterTime_deaf {s : State} (h : s.station.state.onRing = false ∨ s.ring.linkUp = false) :
    Frames s.characterTime.ring s.ring.receiver (waitingOn s) s.ring.formatCount := by
  obtain ⟨v, hv, hstate, hlink, -, hframes⟩ := characterTime_receiver s
  rw [← hstate, ← hlink] at h
  have hring : Frames v.receiveChar.ring v.ring.receiver v.ring.processing v.ring.formatCount := by
    unfold State.receiveChar
    rcases h with hoff | hdown
    · rw [if_neg (by simp [hoff])]
      exact ⟨rfl, rfl, rfl⟩
    · dsimp only
      rw [timeLink_down hdown]
      split
      · rw [if_neg (by simp [hdown])]
        exact ⟨rfl, rfl, rfl⟩
      · exact ⟨rfl, rfl, rfl⟩
  obtain ⟨hr, hp, hn⟩ := hframes
  rw [hv, ← hr, ← hp, ← hn]
  exact hring

/-- On the ring, with the link UP, the receiver takes the character that arrives. -/
theorem characterTime_frames {s : State} (hon : s.station.state.onRing = true) (hup : s.ring.linkUp = true) :
    ∃ v : State, s.characterTime = v.frameCharacter (arriving s) ∧ v.ring.linkUp = true ∧
      Frames v.ring s.ring.receiver (waitingOn s) s.ring.formatCount := by
  obtain ⟨v, hv, hstate, hlink, hchar, hframes⟩ := characterTime_receiver s
  rw [hup] at hlink
  refine ⟨{ v with rxLine := v.rxLine.tail, ring := v.ring.timeLink (arriving s) }, ?_, ?_, ?_⟩
  · rw [hv, State.receiveChar, hchar]
    dsimp only
    rw [hstate, if_pos hon, timeLink_linkUp, if_pos hlink]
  · exact (timeLink_linkUp ..).trans hlink
  · rw [timeLink_up hlink]
    exact hframes

/-! ### The row of an arrived frame (R162, R164, R165) -/

theorem receiptOf_eq {self : StationAddr} {bytes : List Byte} {f : Frame} (hf : parseFrame bytes = some f) :
    receiptOf self bytes = if f.origin = self then homecoming f else receipt f := by
  rw [receiptOf, hf]
  obtain ⟨o, p, b⟩ := f
  cases b <;> rfl

/-- Settles O27: the framing commands, the frames that fail the format check, the table of R159 character by character, and the row
of an arrived frame. -/
theorem receiverFramesAndCounts : Obligations.ReceiverFramesAndCounts := by
  refine ⟨?commands, ?bad, ?characters, ?rows⟩
  case commands =>
    intro s bytes hr hup count
    refine ⟨fun hunting => ⟨?_, fun c => ?_⟩, fun hframe => ⟨?_, ?_, fun c hc => ?_⟩⟩
    · rw [exec_frameStart s hr, startFrame_of_hunting hup hunting]
    · rw [exec_framingDiscard c s hr, discardFraming_of_hunting hunting]
    · rw [exec_frameStart s hr, startFrame_of_inFrame hframe]
    · rw [exec_framingDiscard .start s hr, discardFraming_of_inFrame hup hframe]
      rfl
    · rw [exec_framingDiscard c s hr, discardFraming_of_inFrame hup hframe, afterDiscard_of_ne_start hc]
  case bad =>
    intro bytes s hrec hf
    rw [exec_formatDiscard bytes s hrec.1, receiveBad_of_receives hrec hf]
    exact ⟨rfl, countFormat_arrive bytes s⟩
  case characters =>
    intro s r c waiting takes discarded
    have hstill {x : Receiver} {m : Half} (h : Frames r x waiting m) : takes x [] m := by
      obtain ⟨hr, hp, hn⟩ := h
      exact ⟨hr, hp.trans (List.append_nil _).symm, hn⟩
    refine ⟨fun hdeaf => hstill (frames_characterTime_deaf hdeaf), fun hon hup => ?_⟩
    obtain ⟨v, hv, hlink, hframes⟩ := characterTime_frames hon hup
    have hr : r = (v.frameCharacter c).ring := congrArg State.ring hv
    rw [hr] at hstill
    refine ⟨fun hunting => ?hunting, fun bytes hframe => ?inFrame⟩
    case hunting =>
      rw [hunting] at hframes
      exact hstill (frames_hunting hlink hframes c)
    case inFrame =>
      rw [hframe] at hframes
      refine ⟨fun b hc hroom => ?_, fun b hc hfull => ?_, fun hc => ?_, ?_, fun hc => ?_, fun hc => ?_⟩
      · exact hstill (hc ▸ frames_data hframes b hroom)
      · exact hstill (frames_discarded hframes hlink (hc ▸ frameCharacter_grown hframes b hfull))
      · have hended : Frames (v.frameCharacter c).ring .hunting (waiting ++ [{ bytes := bytes, left := 12 }]) s.ring.formatCount :=
          hc ▸ frames_endChar hframes
        rwa [← hr] at hended
      · rintro (hc | hc)
        · exact hstill (frames_discarded hframes hlink (hc ▸ frameCharacter_idle hframes))
        · exact hstill (frames_discarded hframes hlink (hc ▸ frameCharacter_violation hframes))
      · exact hstill (frames_discarded hframes hlink (hc ▸ frameCharacter_start hframes))
      · exact hstill (hc ▸ frames_silence hframes)
  case rows =>
    intro self bytes
    refine ⟨fun hnone => by rw [receiptOf, hnone], fun f hf => ⟨fun ho => ?_, fun ho => ?_⟩⟩
    · rw [receiptOf_eq hf, if_pos ho]
    · rw [receiptOf_eq hf, if_neg ho]

end Sys2Proof.FramingProofs

/-! ## What the format check refuses (O28) -/

namespace Sys2Proof.LayoutProofs

theorem entry_bytes_length (e : RollEntry) : e.bytes.length = 2 + e.holds.length + 2 * e.pendings.length := by
  simp only [RollEntry.bytes, List.length_cons, List.length_append, flatMap_pendingBytes_length]
  omega

theorem kindByte_mem (b : Body) : b.kindByte ∈ ([0x51, 0x52, 0x53, 0x54, 0x55, 0x56] : List Byte) := by
  cases b <;> simp [Body.kindByte]

/-- A frame that is accepted begins with the byte of its kind, and an address follows it (R202). -/
theorem head_of_parseFrame {bytes : List Byte} {f : Frame} (h : parseFrame bytes = some f) :
    bytes.getD 0 0 = f.body.kindByte ∧ bytes.getD 1 0 = addrByte f.origin := by
  obtain ⟨rfl, -⟩ := parseFrame_eq_some_iff.1 h
  exact ⟨rfl, rfl⟩

/-- Bytes that are those of no frame are discarded. -/
theorem parseFrame_eq_none {bytes : List Byte} (h : ∀ f, parseFrame bytes ≠ some f) : parseFrame bytes = none :=
  Option.eq_none_iff_forall_ne_some.2 h

/-- Settles O28: the length and the CRC are checked before the content, and the frames that pass are those of O52. -/
theorem formatCheckRefuses : Obligations.FormatCheckRefuses := by
  intro bytes
  refine ⟨fun hshort => if_pos hshort, fun hcrc => by rw [parseFrame, if_neg hcrc, ite_self], fun hkind => ?kind, fun horigin => ?origin, fun f hf => ?length⟩
  case kind =>
    refine parseFrame_eq_none fun f hf => hkind ?_
    rw [(head_of_parseFrame hf).1]
    exact kindByte_mem f.body
  case origin =>
    refine parseFrame_eq_none fun f hf => Nat.not_lt.2 horigin ?_
    exact (addrByte_eq_iff.1 (head_of_parseFrame hf).2.symm).1
  case length =>
    obtain ⟨rfl, -⟩ := parseFrame_eq_some_iff.1 hf
    rw [frame_bytes_length, Frame.length]
    cases f.body with
    | claim | settle | probe => rfl
    | release b => simp only [Body.bytes, List.length_cons]; omega
    | roster b => simp only [Body.bytes, List.length_cons]; omega
    | roll b =>
      simp only [Body.bytes, List.length_cons, List.length_append, List.length_flatMap, halfBytes_length, entry_bytes_length]
      omega

end Sys2Proof.LayoutProofs

/-! ## Frames that end at the receiver: the hop limit and own frames (O29, O40) -/

namespace Sys2Proof.ReceiptProofs
open Sys2Proof.Machine Sys2Proof.Statement Sys2Proof.LeaseProofs Sys2Proof.RollProofs

/-- A change that makes no frame available leaves the transmitter as it is (R173). -/
theorem atOnce_of_still {s t : State} (hout : t.outbound = s.outbound) (hforwarding : t.ring.forwarding = s.ring.forwarding) :
    atOnce s t = .next t := by
  rw [atOnce, State.startIdle_quiet _ _ hout hforwarding]

/-! ### The hop limit (R164) -/

/-- A foreign frame at the hop limit is counted and goes no further. -/
theorem judgeFrame_of_hopLimit {f : Frame} {s : State} (horigin : f.origin ≠ s.station.address) (hhop : 15 ≤ f.hop.toNat) :
    s.judgeFrame f = hopCounted s := by
  have hlimit : Config.hopLimit ≤ f.hop.toNat := hhop
  rw [State.judgeFrame, if_neg horigin, if_pos hlimit, countHop_eq]

theorem hopCount_arrive (l : List Byte) (s : State) : (s.arrive l).ring.hopCount = s.ring.hopCount := by
  obtain ⟨x, p, ha⟩ := arrive_changes l s
  rw [ha]

/-- The hop-limit counter after a discard that its arrival precedes. -/
theorem hopCount_hopCounted_arrive (l : List Byte) (s : State) : (hopCounted (s.arrive l)).ring.hopCount = raised s.ring.hopCount :=
  congrArg raised (hopCount_arrive l s)

/-- Settles O29: the frame is judged by its hop count before its kind is looked at, and the counter makes no frame available. -/
theorem hopLimitDiscards : Obligations.HopLimitDiscards := by
  intro f s hrec hwf horigin hhop hdone
  rw [hopCount_hopCounted_arrive]
  refine ⟨?_, fun h => if_neg h, fun h => if_pos h⟩
  have hjudge : (s.arrive f.bytes).judgeFrame f = hopCounted (s.arrive f.bytes) :=
    judgeFrame_of_hopLimit (by rwa [arrive_station]) hhop
  have hquiet : (hopCounted (s.arrive f.bytes)).leavingDone = false := (leavingDone_arrive f.bytes s).trans hdone
  rw [exec_receipt (inReset_of_receives hrec), receive_of_receives hrec hwf, hjudge, testLeaving_of_not_done hquiet]
  exact atOnce_of_still (arrive_outbound ..) (arrive_forwarding ..)

/-! ### Own frames (R164) -/

/-- Every command of an own frame that comes home is the receipt of the frame. -/
theorem exec_homecoming {f : Frame} {s : State} (h : s.inReset = false) (ho : f.origin = s.station.address) :
    exec (homecoming f) s = atOnce s (s.receive f) := by
  obtain ⟨o, p, b⟩ := f
  obtain rfl : o = s.station.address := ho
  cases b with
  | claim b => exact exec_ownClaimReturn p b s h
  | settle b => exact exec_ownFrameStripped p (.settle b) s h
  | release b => exact exec_ownFrameStripped p (.release b) s h
  | roll b => exact exec_ownRollReturn p b s h
  | roster b => exact exec_ownFrameStripped p (.roster b) s h
  | probe q => exact exec_ownProbeReturn p q s h

/-- An own frame that comes home is stripped and handed to its maker, which makes no frame available of it. -/
theorem exec_homecoming_still {f : Frame} {s t : State} (hrec : receives f.bytes s) (hwf : f.wf = true)
    (ho : f.origin = s.station.address) (hdone : s.leavingDone = false) (ht : (s.arrive f.bytes).takeOwn f = t)
    (hl : t.leavingDone = s.leavingDone) (hout : t.outbound = s.outbound) (hforwarding : t.ring.forwarding = s.ring.forwarding) :
    exec (homecoming f) s = .next t := by
  rw [exec_homecoming (inReset_of_receives hrec) ho, receive_of_receives hrec hwf, State.judgeFrame, arrive_station, if_pos ho, ht,
    testLeaving_of_not_done (hl.trans hdone), atOnce_of_still hout hforwarding]

/-- A probe that comes home to no OUT probe of its sequence is ignored (R180). -/
theorem probeHome_of_stale {q : Byte} {s : State} (h : ¬ (s.probe.phase = .out ∧ q = s.probe.sequence)) : s.probeHome q = s := if_neg h

/-- A probe that comes home to the OUT probe of its sequence ends it (R180). -/
theorem probeHome_of_out {q : Byte} {s : State} (h : s.probe.phase = .out ∧ q = s.probe.sequence) :
    s.probeHome q = { s with probe := { s.probe with time := s.station.micros - s.probe.sendTime, done := true, phase := .idle } } :=
  if_pos h

theorem probe_arrive (l : List Byte) (s : State) : (s.arrive l).probe = s.probe := by
  obtain ⟨x, p, ha⟩ := arrive_changes l s
  rw [ha]

/-- An arrival takes a frame from its processing time, or leaves the receiver HUNTING (R163, log 24). -/
theorem arrive_cases (l : List Byte) (s : State) :
    s.arrive l = { s with ring := { s.ring with processing := s.ring.processing.tail } } ∨
      s.arrive l = { s with ring := { s.ring with receiver := .hunting } } := by
  unfold State.arrive
  split
  · exact .inl rfl
  · exact .inr rfl

/-- Settles O40, by the maker that each own frame comes home to. -/
theorem ownProbeAndFramesAreStripped : Obligations.OwnProbeAndFramesAreStripped := by
  refine ⟨?probe, ?own⟩
  case probe =>
    intro hop q s hrec hdone f
    have hprobe : (s.arrive f.bytes).probe = s.probe := probe_arrive ..
    have hstation : (s.arrive f.bytes).station = s.station := arrive_station ..
    refine ⟨fun hout => exec_homecoming_still (f := f) hrec rfl rfl hdone ?_ (leavingDone_arrive ..) (arrive_outbound ..)
      (arrive_forwarding ..), fun hstale => exec_homecoming_still (f := f) hrec rfl rfl hdone ?_ (leavingDone_arrive ..)
      (arrive_outbound ..) (arrive_forwarding ..)⟩
    · rw [← hprobe] at hout
      rw [← hprobe, ← hstation]
      exact probeHome_of_out hout
    · rw [← hprobe] at hstale
      exact probeHome_of_stale hstale
  case own =>
    intro hop b s hrec hdone hwf f
    have hmaker : (s.arrive f.bytes).takeOwn f = s.arrive f.bytes := by cases b <;> rfl
    have hcommand : Instr.ownFrameStripped hop b = homecoming f := by cases b <;> rfl
    rw [hcommand]
    exact ⟨exec_homecoming_still hrec hwf rfl hdone hmaker (leavingDone_arrive ..) (arrive_outbound ..) (arrive_forwarding ..),
      arrive_cases ..⟩

end Sys2Proof.ReceiptProofs

/-! ## The transmitter's choice (O41) -/

namespace Sys2Proof.TransmitProofs
open Sys2Proof.Machine Sys2Proof.Statement

/-- At a frame boundary, and there alone, the transmitter chooses at once (R173). -/
theorem transmitChoice_of_atBoundary {s : State} (h : atBoundary s.ring.transmitter = true) : s.transmitChoice = s.choose := by
  unfold State.transmitChoice
  split
  case h_2 | h_3 | h_6 => rfl
  case h_1 ht | h_4 ht | h_5 ht => rw [ht] at h; nomatch h

/-- Where the table of R173 chooses an own frame, the relief counter starts again (R172). -/
theorem choose_own {s : State} (h : s.choice = .own) :
    s.choose = { s with ring := { s.ring with transmitter := .sendingOwn 0, relief := 0 } } := by
  simp only [State.choose, State.chosen, h]

/-- A forwarded frame that goes before an own one raises the relief counter (R172). -/
theorem choose_forwarded_before_own {s : State} (h : s.choice = .forwarded) {f : OwnFrame} {rest : List OwnFrame} (ho : s.outbound = f :: rest) :
    s.choose = { s with ring := { s.ring with transmitter := .sendingForwarded 0, relief := min 8 (s.ring.relief + 1) } } := by
  simp only [State.choose, State.chosen, h, ho]
  rfl

theorem choose_forwarded_alone {s : State} (h : s.choice = .forwarded) (ho : s.outbound = []) :
    s.choose = { s with ring := { s.ring with transmitter := .sendingForwarded 0 } } := by
  simp only [State.choose, State.chosen, h, ho]
  rfl

theorem choose_none {s : State} (h : s.choice = .none) : s.choose = { s with ring := { s.ring with transmitter := .idle } } := by
  simp only [State.choose, State.chosen, h]

/-! ### The rows of the table (R173) -/

section Rows
variable {s : State} {f : OwnFrame} {rest : List OwnFrame}

theorem choice_own_alone (ho : s.outbound = f :: rest) (hf : s.ring.forwarding = []) : s.choice = .own := by
  simp only [State.choice, ho, hf]

theorem choice_both (ho : s.outbound = f :: rest) (hf : s.ring.forwarding ≠ []) :
    s.choice = if s.ring.relief = 8 ∧ f.frame.length + 361 ≤ s.ring.freeSpace then .own else .forwarded := by
  obtain ⟨g, more, hg⟩ := List.exists_cons_of_ne_nil hf
  simp only [State.choice, ho, hg]
  rfl

theorem choice_forwarded_alone (ho : s.outbound = []) (hf : s.ring.forwarding ≠ []) : s.choice = .forwarded := by
  obtain ⟨g, more, hg⟩ := List.exists_cons_of_ne_nil hf
  simp only [State.choice, ho, hg]

theorem choice_of_nothing (ho : s.outbound = []) (hf : s.ring.forwarding = []) : s.choice = .none := by
  simp only [State.choice, ho, hf]

end Rows

theorem noFrame_iff (s : State) : s.noFrame = true ↔ s.outbound = [] ∧ s.ring.forwarding = [] := by
  rw [State.noFrame, Bool.and_eq_true, List.isEmpty_iff, List.isEmpty_iff]

/-- Settles O41: the rows of the table, and the choice at the end of a change. -/
theorem transmitterChoosesTheNextFrame : Obligations.TransmitterChoosesTheNextFrame := by
  intro s hrun own forwarded reliefRoom
  refine ⟨fun hboundary => ?table, fun hsending => ?busy, fun n hn => ?forwarding, fun b o => rfl, fun before => ⟨?first, ?later⟩⟩
  case table =>
    have hchoose {t : State} (ht : s.choose = t) : exec .transmitChoice s = .next t := by
      rw [exec_transmitChoice s hrun, transmitChoice_of_atBoundary hboundary, ht]
    refine ⟨fun f rest ho hf => hchoose (choose_own (choice_own_alone ho hf)),
      fun f rest ho hf hroom => hchoose (choose_own ((choice_both ho hf).trans (if_pos hroom))),
      fun f rest ho hf hroom => hchoose (choose_forwarded_before_own ((choice_both ho hf).trans (if_neg hroom)) ho),
      fun ho hf => hchoose (choose_forwarded_alone (choice_forwarded_alone ho hf) ho),
      fun ho hf => hchoose (choose_none (choice_of_nothing ho hf))⟩
  case busy =>
    rw [exec_transmitChoice s hrun, State.transmitChoice]
    rcases hsending with ht | ⟨n, ht⟩ <;> rw [ht]
  case forwarding =>
    have hended : s.transmitChoice = s.dropForwarded.choose := by rw [State.transmitChoice, hn]
    have hnext : s.dropForwarded.transmitChoice = s.dropForwarded.choose := transmitChoice_of_atBoundary rfl
    exact (exec_transmitChoice s hrun).trans ((exec_transmitChoice s.dropForwarded hrun).trans (by rw [hended, hnext])).symm
  case first =>
    intro hempty hidle
    have hboundary : atBoundary s.ring.transmitter = true := by rw [hidle]; rfl
    rw [exec_transmitChoice s hrun, transmitChoice_of_atBoundary hboundary,
      State.startIdle_chooses s before ((noFrame_iff before).2 hempty) hidle]
  case later =>
    rintro (hframe | hbusy)
    · exact State.startIdle_waiting s before (Bool.eq_false_iff.2 (mt (noFrame_iff before).1 hframe))
    · exact State.startIdle_busy s before hbusy

end Sys2Proof.TransmitProofs
